-- ==== Sys2Proof/Word.lean ====
section
/-! DEFINITION. Word.lean: the widths of the K960's values (R2, R20, R203). -/

namespace Sys2Proof

/-- A byte of memory. -/
abbrev Byte := BitVec 8

/-- An S register, a control register, an x0 or x1 ring entry (R52, R203). -/
abbrev Word := BitVec 64

/-- One 32-bit V lane, or one slot word (R34, R36). -/
abbrev W32 := BitVec 32

/-- The 128 lanes of a V register, lane 0 first (R34). -/
abbrev Lanes := List W32

/-- One operand of the matrix array (R27). -/
abbrev XF19 := BitVec 19

end Sys2Proof
end

