-- ==== Sys2Proof/Machine/Bits.lean ====
section
/-! DEFINITION. Machine/Bits.lean: bit fields, sign extension, byte order and indexed tables. -/

namespace Sys2Proof

/-- Bits(x, h, l) of R35 on a natural number. -/
def fld (w hi lo : Nat) : Nat := w / 2 ^ lo % 2 ^ (hi + 1 - lo)

/-- Bits(x, h, l) of R35 on a register value. -/
def bits (w : Word) (hi lo : Nat) : Nat := fld w.toNat hi lo

/-- Bit n of a register value. -/
def bit (w : Word) (n : Nat) : Bool := w.toNat / 2 ^ n % 2 == 1

/-- A truth value as 0 or 1 (R52: a predicate in a ring). -/
def b2n (b : Bool) : Nat := if b then 1 else 0

/-- SignExt(x, b) of R35 on a natural number of n = b + 1 bits, as a 64-bit value. -/
def sext64 (n x : Nat) : Word := (BitVec.ofNat n x).signExtend 64

/-- A signed field of n bits as an integer. -/
def sfield (n x : Nat) : Int := (BitVec.ofNat n x).toInt

/-- The little-endian bytes of a value, n of them (R2). -/
def toBytes : Nat → Nat → List Byte
  | 0, _ => []
  | n + 1, v => BitVec.ofNat 8 v :: toBytes n (v / 256)

/-- The value of little-endian bytes (R2). -/
def ofBytes : List Byte → Nat
  | [] => 0
  | b :: t => b.toNat + 256 * ofBytes t

/-- x rounded up to a multiple of k. -/
def roundUp (x k : Nat) : Nat := (x + k - 1) / k * k

/-- An indexed table: an entry that is not listed holds the table's default. -/
abbrev Tbl (α : Type) := List (Nat × α)

namespace Tbl

/-- The entry at k, or d where none is listed. -/
def get {α : Type} (d : α) (k : Nat) : Tbl α → α
  | [] => d
  | (k', v) :: t => if k = k' then v else get d k t

/-- The table with v at k, rising keys kept rising. -/
def set {α : Type} (k : Nat) (v : α) : Tbl α → Tbl α
  | [] => [(k, v)]
  | (k', v') :: t =>
    if k < k' then (k, v) :: (k', v') :: t
    else if k = k' then (k, v) :: t
    else (k', v') :: set k v t

/-- The keys a table lists. -/
def keys {α : Type} (t : Tbl α) : List Nat := t.map (·.1)

/-- Every listed entry changed. -/
def mapVals {α : Type} (f : Nat → α → α) (t : Tbl α) : Tbl α := t.map fun e => (e.1, f e.1 e.2)

end Tbl

/-- Element i of a list, or d beyond its end. -/
def nth {α : Type} (d : α) (l : List α) (i : Nat) : α := l.getD i d

/-- A list of n elements computed by index. -/
def tab {α : Type} (n : Nat) (f : Nat → α) : List α := (List.range n).map f

/-- Element i of the list removed. -/
def dropAt {α : Type} (l : List α) (i : Nat) : List α := l.eraseIdx i

/-- The lanes of a V register all equal to w. -/
def splat (w : W32) : Lanes := List.replicate 128 w

/-- Lane i of a V register (R34). -/
def lane (v : Lanes) (i : Nat) : W32 := v.getD i 0

end Sys2Proof
end

