-- ==== Sys2Proof/Syntax.lean ====
section
/-! DEFINITION. Syntax.lean: the operand fields of a slot word (R44-R51) and the instructions and events of the K960. -/

namespace Sys2Proof

/-- An S source field (R44): a register with its mode bit (trap if empty), or a ring tap of x0 or x1. -/
inductive SSrc where
  | reg (n : BitVec 6) (trap : Bool)
  | tap (x1 : Bool) (depth : BitVec 2)
  deriving DecidableEq, Repr

/-- An S destination field (R45); 0 is ring only. -/
abbrev SDst := BitVec 6

/-- A V source field (R46): a register read through a named port with its mode bit, or a ring tap
of y0, y1, ld or md (units 0 to 3). -/
inductive VSrc where
  | reg (n : BitVec 4) (port : BitVec 2) (trap : Bool)
  | tap (unit : BitVec 2) (depth : BitVec 2)
  deriving DecidableEq, Repr

/-- A V short source field (R47). -/
inductive VShort where
  | reg (n : BitVec 4) (trap : Bool)
  | tap (unit : BitVec 2) (depth : BitVec 2)
  deriving DecidableEq, Repr

/-- A V destination field (R48): a register, or ring only (code 31). -/
inductive VDst where
  | reg (n : BitVec 4)
  | ring
  deriving DecidableEq, Repr

/-- Compare conditions (R51, R74). -/
inductive Cond where
  | eq | ne | lt | ltu | le | leu
  deriving DecidableEq, Repr

/-- Conversion formats (R51). -/
inductive CvtFmt where
  | fp32 | fp16 | bf16 | e4m3 | e5m2 | i32 | i8
  deriving DecidableEq, Repr

/-- Ordering scopes (R51, R354). -/
inductive Scope where
  | core | cluster | die | package | system
  deriving DecidableEq, Repr

/-- The order bits of an atomic (R51, R159). -/
inductive AmoOrder where
  | none | acq | rel
  deriving DecidableEq, Repr

/-- Access sizes (R61). -/
inductive Size where
  | byte | half | word | double
  deriving DecidableEq, Repr

/-- mdrain shapes (R60). -/
inductive Shape where
  | row | col | diag
  deriving DecidableEq, Repr

/-- tld destinations (R61). -/
inductive TldWhere where
  | ringA | ringB | scratch
  deriving DecidableEq, Repr

/-- The two kinds of phase (R61). -/
inductive PhaseKind where
  | acq | rel
  deriving DecidableEq, Repr

/-- tlbinv kinds (R66, R94). -/
inductive TlbKind where
  | all | page | vdev
  deriving DecidableEq, Repr

/-- cwb and cinv kinds (R66, R95). -/
inductive CacheKind where
  | line | page | l1
  deriving DecidableEq, Repr

/-- Whose write a configuration register takes (0 a system core, 1 the host through PF0, v + 2 through the
virtual function of device v), and the block it goes to (log 37). -/
structure CfgBlock where
  by_ : Nat
  block : Nat
  deriving DecidableEq, Repr

/-- A reading of a temperature sensor, in degrees (R429). -/
structure Heat where
  sensor : Nat
  temp : Nat
  deriving DecidableEq, Repr

/-- The package's power in watts, and how many microseconds it has been above 5,200 W (R429). -/
structure Draw where
  watts : Nat
  us : Nat
  deriving DecidableEq, Repr

/-- One slot word (R55-R66) or one event of the part (opcode_table.json; the events that come from outside last). An event's
numbers name the core, the context of that core, the cluster, the Pier die, the virtual device, the
entry k of a list of outstanding work, or the value written. -/
inductive Instr where
  /-- R38: The core fetches the next bundle of the current context, frames it by STOP and checks it before any slot takes effect. -/
  | bundleFetch (core : Nat)
  /-- R53: A fixed-latency result reaches its landing tick and enters its unit's ring and destination register, setting it full. -/
  | fixedLatencyLanding (core : Nat) (ctx : Nat)
  /-- R43: S-class nop occupies its slot and does nothing. -/
  | nopS
  /-- R68: Adds two S registers. -/
  | add (d : BitVec 6) (a : SSrc) (b : SSrc)
  /-- R68: Subtracts two S registers. -/
  | sub (d : BitVec 6) (a : SSrc) (b : SSrc)
  /-- R68: Adds a sign-extended 9-bit immediate. -/
  | addi (d : BitVec 6) (a : SSrc) (i : BitVec 9)
  /-- R68: Low 64 bits of a product, landing in 3 ticks. -/
  | mul (d : BitVec 6) (a : SSrc) (b : SSrc)
  /-- R68: High 64 bits of the signed product. -/
  | mulh (d : BitVec 6) (a : SSrc) (b : SSrc)
  /-- R68: High 64 bits of the unsigned product. -/
  | mulhu (d : BitVec 6) (a : SSrc) (b : SSrc)
  /-- R70: Signed division with fixed corner cases, landing in 12 ticks. -/
  | div (d : BitVec 6) (a : SSrc) (b : SSrc)
  /-- R70: Unsigned division. -/
  | divu (d : BitVec 6) (a : SSrc) (b : SSrc)
  /-- R70: Signed remainder. -/
  | rem (d : BitVec 6) (a : SSrc) (b : SSrc)
  /-- R70: Unsigned remainder. -/
  | remu (d : BitVec 6) (a : SSrc) (b : SSrc)
  /-- R68: Bitwise AND. -/
  | andS (d : BitVec 6) (a : SSrc) (b : SSrc)
  /-- R68: Bitwise OR. -/
  | orS (d : BitVec 6) (a : SSrc) (b : SSrc)
  /-- R68: Bitwise XOR. -/
  | xorS (d : BitVec 6) (a : SSrc) (b : SSrc)
  /-- R68: a AND NOT b. -/
  | andn (d : BitVec 6) (a : SSrc) (b : SSrc)
  /-- R68: AND with a sign-extended immediate. -/
  | andi (d : BitVec 6) (a : SSrc) (i : BitVec 9)
  /-- R68: OR with a sign-extended immediate. -/
  | ori (d : BitVec 6) (a : SSrc) (i : BitVec 9)
  /-- R68: XOR with a sign-extended immediate. -/
  | xori (d : BitVec 6) (a : SSrc) (i : BitVec 9)
  /-- R69: Shift left by register. -/
  | shl (d : BitVec 6) (a : SSrc) (b : SSrc)
  /-- R69: Logical shift right by register. -/
  | shr (d : BitVec 6) (a : SSrc) (b : SSrc)
  /-- R69: Arithmetic shift right by register. -/
  | sar (d : BitVec 6) (a : SSrc) (b : SSrc)
  /-- R69: Shift left by immediate. -/
  | shli (d : BitVec 6) (a : SSrc) (i : BitVec 6)
  /-- R69: Logical shift right by immediate. -/
  | shri (d : BitVec 6) (a : SSrc) (i : BitVec 6)
  /-- R69: Arithmetic shift right by immediate. -/
  | sari (d : BitVec 6) (a : SSrc) (i : BitVec 6)
  /-- R71: Counts leading zero bits. -/
  | clz (d : BitVec 6) (a : SSrc)
  /-- R71: Counts trailing zero bits. -/
  | ctz (d : BitVec 6) (a : SSrc)
  /-- R71: Counts one bits. -/
  | popc (d : BitVec 6) (a : SSrc)
  /-- R73: Extracts a signed bit field. -/
  | extr (d : BitVec 6) (a : SSrc) (b : SSrc)
  /-- R73: Extracts an unsigned bit field. -/
  | extru (d : BitVec 6) (a : SSrc) (b : SSrc)
  /-- R73: Inserts a bit field into the old destination. -/
  | ins (d : BitVec 6) (a : SSrc) (b : SSrc)
  /-- R68: Signed minimum. -/
  | minS (d : BitVec 6) (a : SSrc) (b : SSrc)
  /-- R68: Signed maximum. -/
  | maxS (d : BitVec 6) (a : SSrc) (b : SSrc)
  /-- R68: Unsigned minimum. -/
  | minu (d : BitVec 6) (a : SSrc) (b : SSrc)
  /-- R68: Unsigned maximum. -/
  | maxu (d : BitVec 6) (a : SSrc) (b : SSrc)
  /-- R71: Loads a sign-extended 16-bit immediate. -/
  | movi (d : BitVec 6) (i : BitVec 16)
  /-- R71: Shifts the old destination left 16 and ORs in an immediate. -/
  | movhi (d : BitVec 6) (i : BitVec 16)
  /-- R72: Selects a or b by predicate p0-p3. -/
  | selP0P3 (d : BitVec 6) (a : SSrc) (b : SSrc) (p : BitVec 2)
  /-- R72: Selects a or b by predicate p4-p7. -/
  | selP4P7 (d : BitVec 6) (a : SSrc) (b : SSrc) (p : BitVec 2)
  /-- R72: Adds a shifted register to a base. -/
  | lea (d : BitVec 6) (a : SSrc) (b : SSrc) (h : BitVec 2)
  /-- R74: Compares two registers into a predicate. -/
  | cmp (p : BitVec 3) (c : Cond) (a : SSrc) (b : SSrc)
  /-- R74: Compares a register with an immediate into a predicate. -/
  | cmpi (p : BitVec 3) (c : Cond) (a : SSrc) (i : BitVec 9)
  /-- R75: Predicate AND. -/
  | pand (p : BitVec 3) (q : BitVec 3) (r : BitVec 3)
  /-- R75: Predicate OR. -/
  | por (p : BitVec 3) (q : BitVec 3) (r : BitVec 3)
  /-- R75: Predicate XOR. -/
  | pxor (p : BitVec 3) (q : BitVec 3) (r : BitVec 3)
  /-- R75: Predicate NOT. -/
  | pnot (p : BitVec 3) (q : BitVec 3)
  /-- R77: Scalar FP32 add. -/
  | sfadd (d : BitVec 6) (a : SSrc) (b : SSrc)
  /-- R77: Scalar FP32 multiply. -/
  | sfmul (d : BitVec 6) (a : SSrc) (b : SSrc)
  /-- R77: Scalar FP32 fused multiply-add into the old destination. -/
  | sfma (d : BitVec 6) (a : SSrc) (b : SSrc)
  /-- R78: Scalar format conversion among FP32, FP16, BF16 and I32. -/
  | sfcvt (d : BitVec 6) (a : SSrc) (f : CvtFmt) (g : CvtFmt) (u : Bool)
  /-- R43: V-class nop. -/
  | nopV
  /-- R99: Lane-wise FP32 add. -/
  | vaddF32 (d : VDst) (a : VSrc) (b : VSrc)
  /-- R99: Lane-wise FP32 subtract. -/
  | vsubF32 (d : VDst) (a : VSrc) (b : VSrc)
  /-- R99: Lane-wise FP32 multiply. -/
  | vmulF32 (d : VDst) (a : VSrc) (b : VSrc)
  /-- R99: Lane-wise FP32 fused multiply-add into vd. -/
  | vfmaF32 (d : BitVec 4) (a : VSrc) (b : VSrc)
  /-- R99: Lane-wise FP32 fused multiply-subtract from vd. -/
  | vfmsF32 (d : BitVec 4) (a : VSrc) (b : VSrc)
  /-- R100: Lane-wise FP32 maximum. -/
  | vmaxF32 (d : VDst) (a : VSrc) (b : VSrc)
  /-- R100: Lane-wise FP32 minimum. -/
  | vminF32 (d : VDst) (a : VSrc) (b : VSrc)
  /-- R100: Clears the sign bit of each lane. -/
  | vabsF32 (d : VDst) (a : VSrc)
  /-- R100: Inverts the sign bit of each lane. -/
  | vnegF32 (d : VDst) (a : VSrc)
  /-- R101: Packed BF16 add. -/
  | vaddBf16 (d : VDst) (a : VSrc) (b : VSrc)
  /-- R101: Packed BF16 multiply. -/
  | vmulBf16 (d : VDst) (a : VSrc) (b : VSrc)
  /-- R101: Packed BF16 fused multiply-add. -/
  | vfmaBf16 (d : BitVec 4) (a : VSrc) (b : VSrc)
  /-- R101: Packed BF16 maximum. -/
  | vmaxBf16 (d : VDst) (a : VSrc) (b : VSrc)
  /-- R101: Packed BF16 minimum. -/
  | vminBf16 (d : VDst) (a : VSrc) (b : VSrc)
  /-- R101: Packed FP16 add. -/
  | vaddF16 (d : VDst) (a : VSrc) (b : VSrc)
  /-- R101: Packed FP16 multiply. -/
  | vmulF16 (d : VDst) (a : VSrc) (b : VSrc)
  /-- R101: Packed FP16 fused multiply-add. -/
  | vfmaF16 (d : BitVec 4) (a : VSrc) (b : VSrc)
  /-- R101: Packed FP16 maximum. -/
  | vmaxF16 (d : VDst) (a : VSrc) (b : VSrc)
  /-- R101: Packed FP16 minimum. -/
  | vminF16 (d : VDst) (a : VSrc) (b : VSrc)
  /-- R102: Lane-wise integer add. -/
  | vaddI32 (d : VDst) (a : VSrc) (b : VSrc)
  /-- R102: Lane-wise integer subtract. -/
  | vsubI32 (d : VDst) (a : VSrc) (b : VSrc)
  /-- R102: Lane-wise integer multiply. -/
  | vmulI32 (d : VDst) (a : VSrc) (b : VSrc)
  /-- R102: Lane-wise signed maximum. -/
  | vmaxI32 (d : VDst) (a : VSrc) (b : VSrc)
  /-- R102: Lane-wise signed minimum. -/
  | vminI32 (d : VDst) (a : VSrc) (b : VSrc)
  /-- R102: Lane-wise AND. -/
  | vandI32 (d : VDst) (a : VSrc) (b : VSrc)
  /-- R102: Lane-wise OR. -/
  | vorI32 (d : VDst) (a : VSrc) (b : VSrc)
  /-- R102: Lane-wise XOR. -/
  | vxorI32 (d : VDst) (a : VSrc) (b : VSrc)
  /-- R102: Lane-wise a AND NOT b. -/
  | vandnI32 (d : VDst) (a : VSrc) (b : VSrc)
  /-- R102: Lane-wise shift left. -/
  | vshlI32 (d : VDst) (a : VSrc) (b : VSrc)
  /-- R102: Lane-wise logical shift right. -/
  | vshrI32 (d : VDst) (a : VSrc) (b : VSrc)
  /-- R102: Lane-wise arithmetic shift right. -/
  | vsarI32 (d : VDst) (a : VSrc) (b : VSrc)
  /-- R103: Lane-wise FP32 equality mask. -/
  | vcmpEqF32 (d : VDst) (a : VSrc) (b : VSrc)
  /-- R103: Lane-wise FP32 less-than mask. -/
  | vcmpLtF32 (d : VDst) (a : VSrc) (b : VSrc)
  /-- R103: Lane-wise FP32 less-or-equal mask. -/
  | vcmpLeF32 (d : VDst) (a : VSrc) (b : VSrc)
  /-- R103: Lane-wise integer equality mask. -/
  | vcmpEqI32 (d : VDst) (a : VSrc) (b : VSrc)
  /-- R103: Lane-wise signed less-than mask. -/
  | vcmpLtI32 (d : VDst) (a : VSrc) (b : VSrc)
  /-- R103: Lane-wise signed less-or-equal mask. -/
  | vcmpLeI32 (d : VDst) (a : VSrc) (b : VSrc)
  /-- R104: Bitwise select with the old vd as mask. -/
  | vsel (d : BitVec 4) (a : VSrc) (b : VSrc)
  /-- R105: Broadcasts a scalar into every lane. -/
  | vbcast (d : VDst) (a : SSrc)
  /-- R105: Moves a scalar into one lane of vd. -/
  | vmovs (d : BitVec 4) (a : SSrc) (l : BitVec 7)
  /-- R105: Writes base plus lane number into each lane. -/
  | vidx (d : VDst) (a : SSrc)
  /-- R106: Converts 128 elements between formats. -/
  | vcvt (d : VDst) (a : VSrc) (f : CvtFmt) (g : CvtFmt) (u : Bool)
  /-- R107: Correctly rounded reciprocal. -/
  | vrcpF32 (d : VDst) (a : VSrc)
  /-- R107: Correctly rounded reciprocal square root. -/
  | vrsqF32 (d : VDst) (a : VSrc)
  /-- R107: Correctly rounded power of two. -/
  | vexp2F32 (d : VDst) (a : VSrc)
  /-- R107: Correctly rounded base-2 logarithm. -/
  | vlog2F32 (d : VDst) (a : VSrc)
  /-- R107: Correctly rounded tanh. -/
  | vtanhF32 (d : VDst) (a : VSrc)
  /-- R107: Correctly rounded logistic sigmoid. -/
  | vsigF32 (d : VDst) (a : VSrc)
  /-- R108: Tree-sum reduction of all lanes into every lane. -/
  | vredAdd (d : VDst) (a : VSrc) (y : Bool)
  /-- R108: Tree maximum reduction. -/
  | vredMax (d : VDst) (a : VSrc) (y : Bool)
  /-- R108: Tree minimum reduction. -/
  | vredMin (d : VDst) (a : VSrc) (y : Bool)
  /-- R109: Inclusive prefix sums in seven steps. -/
  | vscanAdd (d : VDst) (a : VSrc) (y : Bool)
  /-- R113: Lane shuffle through pattern entries 0-31. -/
  | vshufLo (d : VDst) (n : BitVec 5) (a : VShort) (b : VShort)
  /-- R113: Lane shuffle through pattern entries 32-63. -/
  | vshufHi (d : VDst) (n : BitVec 5) (a : VShort) (b : VShort)
  /-- R43: M-class nop. -/
  | nopM
  /-- R129: Decodes two B rows into the shadow weight buffer. -/
  | mpush (p : Bool)
  /-- R130: Exchanges active and shadow weight buffers. -/
  | mswap
  /-- R131: Accumulates one A row times the active weights into an accumulator row. -/
  | macc (p : Bool) (n : Bool) (q : BitVec 7)
  /-- R132: Accumulates an A row read from the scratchpad at a lane address. -/
  | maccG (n : Bool) (q : BitVec 7) (a : VSrc)
  /-- R133: Converts an accumulator row, column or diagonal to a V register. -/
  | mdrain (h : Shape) (n : Bool) (i : BitVec 7) (d : VDst) (f : CvtFmt) (u : Bool)
  /-- R134: Clears accumulator rows. -/
  | mzero (n : Bool) (f : BitVec 7) (c : BitVec 7)
  /-- R119: Checks and sets MCTL. -/
  | mcfg (a : SSrc)
  /-- R137: Opens a play of beat-program entries for a counted number of iterations. -/
  | mrun (s : BitVec 8) (a : SSrc) (l : BitVec 7)
  /-- R137: A latched beat-program entry issues at its tick of an open play. -/
  | playedBeat (core : Nat)
  /-- R43: L-class nop. -/
  | nopL
  /-- R153: Zero-extending scratchpad load. -/
  | lds (d : BitVec 6) (a : SSrc) (i : BitVec 7) (z : Size)
  /-- R153: Sign-extending scratchpad load. -/
  | ldsS (d : BitVec 6) (a : SSrc) (i : BitVec 7) (z : Size)
  /-- R153: Scratchpad store. -/
  | sts (a : SSrc) (b : SSrc) (i : BitVec 6) (z : Size)
  /-- R154: Loads a V register from the scratchpad. -/
  | ldv (d : VDst) (a : SSrc) (i : BitVec 10)
  /-- R154: Stores a V register to the scratchpad. -/
  | stv (v : VSrc) (a : SSrc) (i : BitVec 7)
  /-- R156: Variable-latency zero-extending memory load or prefetch. -/
  | ld (d : BitVec 6) (a : SSrc) (i : BitVec 7) (z : Size)
  /-- R156: Variable-latency sign-extending memory load. -/
  | ldS (d : BitVec 6) (a : SSrc) (i : BitVec 7) (z : Size)
  /-- R156: Memory load that is an acquire at package scope. -/
  | lda (d : BitVec 6) (a : SSrc) (i : BitVec 7) (z : Size)
  /-- R156: Memory store. -/
  | st (a : SSrc) (b : SSrc) (i : BitVec 6) (z : Size)
  /-- R156: Memory store that is a release at package scope. -/
  | sta (a : SSrc) (b : SSrc) (i : BitVec 6) (z : Size)
  /-- R156: A memory load's data or failure returns and fills or empty-faults its destination. -/
  | loadCompletion (core : Nat) (ctx : Nat) (k : Nat)
  /-- R163: Loads a tile by handle into a ring or the scratchpad. -/
  | tld (w : TldWhere) (a : SSrc) (b : SSrc) (d : BitVec 6)
  /-- R237: A waiting ring tld claims space at the ring tail once room appears. -/
  | tldRingClaim (core : Nat) (ctx : Nat)
  /-- R163: A tld finishes, marking the tile valid or failed and writing its status. -/
  | tileLoadCompletion (core : Nat) (ctx : Nat) (k : Nat)
  /-- R164: Stores a scratchpad tile to a handle. -/
  | tst (a : SSrc) (b : SSrc) (d : BitVec 6)
  /-- R164: A tst finishes when every row is accepted or failed and writes its status. -/
  | tileStoreCompletion (core : Nat) (ctx : Nat) (k : Nat)
  /-- R165: Appends block scales to the scale queue. -/
  | ldsc (a : SSrc) (c : BitVec 8)
  /-- R159: Atomic add at the location's home. -/
  | amoAdd (c : Scope) (o : AmoOrder) (d : BitVec 6) (a : SSrc) (w : Bool)
  /-- R159: Atomic AND. -/
  | amoAnd (c : Scope) (o : AmoOrder) (d : BitVec 6) (a : SSrc) (w : Bool)
  /-- R159: Atomic OR. -/
  | amoOr (c : Scope) (o : AmoOrder) (d : BitVec 6) (a : SSrc) (w : Bool)
  /-- R159: Atomic XOR. -/
  | amoXor (c : Scope) (o : AmoOrder) (d : BitVec 6) (a : SSrc) (w : Bool)
  /-- R159: Atomic signed minimum. -/
  | amoMin (c : Scope) (o : AmoOrder) (d : BitVec 6) (a : SSrc) (w : Bool)
  /-- R159: Atomic signed maximum. -/
  | amoMax (c : Scope) (o : AmoOrder) (d : BitVec 6) (a : SSrc) (w : Bool)
  /-- R159: Atomic exchange. -/
  | amoXchg (c : Scope) (o : AmoOrder) (d : BitVec 6) (a : SSrc) (w : Bool)
  /-- R159: Atomic compare-and-swap. -/
  | amoCas (c : Scope) (o : AmoOrder) (d : BitVec 6) (a : SSrc) (w : Bool)
  /-- R159: An atomic's reply returns the old value or a failure to its register. -/
  | amoReply (core : Nat) (ctx : Nat) (k : Nat)
  /-- R160: Lazy release or home acquire on a synchronisation variable. -/
  | phase (a : SSrc) (c : Scope) (k : PhaseKind)
  /-- R160: A phase.acq arrives at the variable's home and directs releasers to write back. -/
  | phaseAcquireAtHome (core : Nat) (ctx : Nat)
  /-- R360: A phase.rel registration arrives at the variable's home and is on record. -/
  | phaseReleaseRegistration (core : Nat) (ctx : Nat)
  /-- R161: Acquire at a scope. -/
  | acq (c : Scope)
  /-- R161: Eager release at a scope. -/
  | rel (c : Scope)
  /-- R161: Release then acquire at a scope. -/
  | fence (c : Scope)
  /-- R43: C-class nop. -/
  | nopC
  /-- R171: Posts a packet image to a copy queue. -/
  | cpost (a : SSrc) (b : SSrc) (d : BitVec 6)
  /-- R171: The slot claim at the header home returns and cpost or coll writes its slot and status. -/
  | cpostCompletion (core : Nat) (ctx : Nat) (k : Nat)
  /-- R177: Hands an index vector and handle to the copy engine to gather rows. -/
  | gather (v : VSrc) (a : SSrc) (b : SSrc)
  /-- R179: Hands rows to the copy engine to scatter by index. -/
  | scatter (v : VSrc) (a : SSrc) (b : SSrc)
  /-- R181: Writes receive counters and posts a collective packet. -/
  | coll (a : SSrc) (b : SSrc) (d : BitVec 6)
  /-- R168: Initialises a transaction barrier. -/
  | tbinit (a : SSrc) (b : SSrc)
  /-- R168: Arrives at a barrier with a release. -/
  | tbarr (a : SSrc)
  /-- R168: Adds expected bytes to a barrier. -/
  | tbexp (a : SSrc) (b : SSrc)
  /-- R169: Waits on a barrier phase, parking the record if PARK is set. -/
  | tbwait (a : SSrc) (b : SSrc) (d : BitVec 6)
  /-- R279: The park reaches the barrier home and links the record or requeues it at once. -/
  | parkApply (cluster : Nat)
  /-- R167: An engine or remote update is applied at the barrier's home. -/
  | barrierUpdateArrival (k : Nat)
  /-- R183: Waits until a plane counter reaches a count. -/
  | plwait (a : SSrc) (p : BitVec 4) (d : BitVec 6)
  /-- R183: Reads a plane counter word. -/
  | plread (a : SSrc) (d : BitVec 6)
  /-- R184: Freezes a plane counter and cancels the remaining planes. -/
  | plcancel (a : SSrc)
  /-- R185: Asks a tile dispenser for the next work identifier. -/
  | nxt (a : SSrc)
  /-- R145: Moves an S value to a port-unit operand or trigger port. -/
  | pmovS (o : BitVec 8) (a : SSrc)
  /-- R145: Moves a V register to a re-cluster value port. -/
  | pmovV (o : BitVec 8) (v : VSrc)
  /-- R146: Reads a port-unit result port into an S register. -/
  | pget (d : BitVec 6) (o : BitVec 8)
  /-- R127: Loads 16 code lengths into a decoder table bank. -/
  | lddt (n : BitVec 3) (a : SSrc) (d : BitVec 6)
  /-- R127: Once the target bank's in-flight count is 0, the lddt builds the code and writes its status. -/
  | lddtCompletion (core : Nat) (ctx : Nat) (dt : Nat)
  /-- R141: Loads a codebook register from a scratchpad image. -/
  | cbld (c : BitVec 4) (a : SSrc)
  /-- R141: Stores a codebook register image to the scratchpad. -/
  | cbst (c : BitVec 4) (a : SSrc)
  /-- R142: Moves a codebook register into a V register. -/
  | cbget (d : BitVec 4) (c : BitVec 4)
  /-- R142: Writes codebook entries from a V register. -/
  | cbput (c : BitVec 4) (v : VSrc)
  /-- R112: Loads a shuffle pattern into the inactive bank and activates it. -/
  | vpld (e : BitVec 6) (a : SSrc)
  /-- R136: Loads beat-program entries from the scratchpad. -/
  | mbld (s : BitVec 8) (a : SSrc) (n : BitVec 7)
  /-- R191: The codebook unit merges equal codebook entries and builds the dedup table. -/
  | cbuDedup (core : Nat) (ctx : Nat)
  /-- R193: The codebook unit rewrites index planes through the dedup or rcu table. -/
  | cbuRemap (core : Nat) (ctx : Nat)
  /-- R194: The codebook unit forms pair indices, populations and the pair value image. -/
  | cbuPair (core : Nat) (ctx : Nat)
  /-- R200: The codebook unit writes dense values from index planes. -/
  | cbuExpand (core : Nat) (ctx : Nat)
  /-- R196: The re-cluster unit reduces the pair buffer to a codebook and measures the error and abandon flag. -/
  | rcuRun (core : Nat) (ctx : Nat)
  /-- R301: The entropy table builder counts indices and builds Huffman lengths. -/
  | htbBuild (core : Nat) (ctx : Nat)
  /-- R43: B-class nop. -/
  | nopB
  /-- R79: Prepares a branch target from a register and starts its fetch. -/
  | pbr (n : BitVec 3) (a : SSrc)
  /-- R79: Prepares a PC-relative branch target. -/
  | pbri (n : BitVec 3) (i : BitVec 19)
  /-- R80: Conditional branch through a b register. -/
  | br (n : BitVec 3) (q : BitVec 3) (g : Bool)
  /-- R80: Conditional call writing the link to b7. -/
  | call (n : BitVec 3) (q : BitVec 3) (g : Bool)
  /-- R80: Conditional return through b7. -/
  | ret (q : BitVec 3) (g : Bool)
  /-- R84: Marks a pre-emption point. -/
  | pmark
  /-- R85: Saves the context and requeues the record. -/
  | suspend
  /-- R85: Completes the work item and frees the context. -/
  | endB
  /-- R43: X-class nop. -/
  | nopX
  /-- R88: Requests a software trap with a code. -/
  | trap (i : BitVec 16)
  /-- R89: Returns from a supervisor trap, restoring and re-injecting captured state. -/
  | reti
  /-- R90: Returns from a user-level interrupt handler. -/
  | uret
  /-- R91: Reads a control register. -/
  | crd (d : BitVec 6) (n : BitVec 12)
  /-- R91: Writes a control register. -/
  | cwr (a : SSrc) (n : BitVec 12)
  /-- R92: Saves the owner's array state and takes the array for the handler. -/
  | arrsave
  /-- R92: Restores saved array state and owner tag. -/
  | arrrest
  /-- R93: Requests new pool boundaries. -/
  | setpool (a : SSrc) (d : BitVec 6)
  /-- R228: The pool units changing region are drained and zero-filled and setpool's status becomes full. -/
  | setpoolConversion (core : Nat)
  /-- R94: Invalidates translations package-wide. -/
  | tlbinv (a : SSrc) (k : TlbKind)
  /-- R95: Writes back dirty L1 sectors. -/
  | cwb (a : SSrc) (k : CacheKind)
  /-- R95: Writes back then invalidates L1 lines. -/
  | cinv (a : SSrc) (k : CacheKind)
  /-- R96: Waits for the event flag. -/
  | wfe
  /-- R383: A fault, software trap or interrupt is taken: the context is captured into a frame and the handler issues. -/
  | supervisorTrapEntry (core : Nat) (ctx : Nat)
  /-- R286: A pending user-level interrupt is taken, shadowing s60-s63 and capturing landings. -/
  | userInterruptEntry (core : Nat) (ctx : Nat)
  /-- R342: The selector switches from a stalled or idle context to the next ready one. -/
  | switchOnStall (core : Nat)
  /-- R342: A context current for 1,024 issuing cycles while another is ready is switched away. -/
  | switchQuantumExpiry (core : Nat)
  /-- R345: A cluster raises a pre-emption request for a lower-priority running context. -/
  | preemptionRequest (cluster : Nat)
  /-- R347: After PBOUND ticks without an honoured mark the context and array are captured to the record. -/
  | heavyPreemption (core : Nat) (ctx : Nat)
  /-- R341: A killed running item is stopped at the next boundary without writing anything. -/
  | itemKill (core : Nat) (ctx : Nat)
  /-- R327: The launch scheduler takes a launch packet and reads and checks its header. -/
  | launchTake (vdev : Nat) (q : Nat)
  /-- R334: The scheduler creates a continuation record for the next identifier and queues it. -/
  | recordCreate (launch : Nat)
  /-- R336: An idle context picks up a record and restores its state. -/
  | recordPickup (cluster : Nat)
  /-- R281: A record waiting AGE_TICKS cycles moves to the next higher list. -/
  | recordAging (cluster : Nat)
  /-- R282: A cluster idle for 64 cycles steals a record from a neighbour cluster. -/
  | recordSteal (cluster : Nat)
  /-- R318: A cluster low on identifiers receives a batch from the scheduler. -/
  | dispenserBatchRequest (cluster : Nat) (launch : Nat) (d : Nat)
  /-- R318: A cluster with no records of the launch returns its batches. -/
  | dispenserBatchReturn (cluster : Nat) (launch : Nat)
  /-- R318: The scheduler broadcasts exhaustion of a dispenser. -/
  | dispenserExhaustion (launch : Nat) (d : Nat)
  /-- R275: A serving engine takes the next slot whose SEQ matches, pins its pages and starts it. -/
  | packetTake (vdev : Nat) (q : Nat)
  /-- R176: A packet's transfer ends and STATE 2 or 3 is written, raising any UIRQ. -/
  | packetCompletion (k : Nat)
  /-- R241: A cluster transform unit finishes a transform packet's blocks. -/
  | transformCompletion (k : Nat)
  /-- R178: The copy engine serves one gather lane, writing the row or pad and counting it. -/
  | gatherRow (k : Nat) (lane : Nat)
  /-- R179: The copy engine writes one scatter row and counts it. -/
  | scatterRow (k : Nat) (lane : Nat)
  /-- R312: A taking engine announces its party to the engines of every other party. -/
  | collectiveAnnounce (k : Nat)
  /-- R182: A collective plane arrives, is written and counted, or fails. -/
  | planeLanding (k : Nat)
  /-- R313: A relay forwards a landed plane to a downstream party. -/
  | relayForward (k : Nat)
  /-- R314: A cancel reaches the sender or relay, which stops sending that tile. -/
  | cancelUpstream (k : Nat)
  /-- R314: A relay's truncation freezes a downstream counter with REASON 1. -/
  | truncation (k : Nat)
  /-- R315: A relay's error notice freezes a downstream counter with ERR. -/
  | errorNotice (k : Nat)
  /-- R125: The entropy decoder decodes a segment ahead into the symbol FIFO. -/
  | decoderSegmentDecode (core : Nat)
  /-- R267: A second-tier page whose counter reaches THRESH is promoted to HBM. -/
  | pagePromotion (pier : Nat)
  /-- R267: With the frame pool below LOW the coldest unpinned HBM page is demoted. -/
  | pageDemotion (pier : Nat)
  /-- R268: Once the pin count is 0 the page is written back, copied and remapped. -/
  | migrationCopy (k : Nat)
  /-- R255: Stalled allocating writes resume when FREE exceeds RSV by enough. -/
  | allocatingWriteResume (pier : Nat)
  /-- R287: A prefetch request is served, promoting or counting its page. -/
  | prefetchRequestServe (pier : Nat)
  /-- R165: The entries of an ldsc enter the scale queue 128 per cycle, and the ldsc stops being outstanding when the last has entered. -/
  | scaleQueueFill (core : Nat)
  /-- R382: Core KCYC reaches a TIMER deadline and a timer interrupt becomes pending. -/
  | timerExpiry (cluster : Nat) (n : Nat)
  /-- R382: A NOTICE write makes notice interrupts pending. -/
  | noticeWrite (cluster : Nat) (w : Nat)
  /-- R345: A CPREQ write requests pre-emption of named contexts. -/
  | cpreqWrite (cluster : Nat) (w : Nat)
  /-- R265: A walker completes a page-table walk for a TLB miss. -/
  | pageWalk (core : Nat) (va : Nat)
  /-- R267: Every EPOCH cycles the access counters halve. -/
  | epochHalving (pier : Nat)
  /-- R256: The fabric manager asks to release a CXL extent, which is swept and answered. -/
  | extentReleaseRequest (base : Nat) (len : Nat)
  /-- R256: A forced extent removal drops and poisons its cached lines. -/
  | forcedExtentRemoval (base : Nat) (len : Nat)
  /-- R254: A chunk is given to the free list, possibly opening the second tier. -/
  | chunkAddWrite (pier : Nat) (w : Nat)
  /-- R254: Sets the chunk reserve or logs a rejected value. -/
  | chunkRsvWrite (pier : Nat) (w : Nat)
  /-- R267: Gives an HBM frame to the migration frame pool. -/
  | frameAddWrite (pier : Nat) (w : Nat)
  /-- R423: Moves the host BAR 2 window for later requests. -/
  | hwbaseWrite (vdev : Nat) (w : Nat)
  /-- R3: A write to a configuration register that has no row of its own. -/
  | configRegisterWrite (block : CfgBlock) (unit : Nat) (reg : Nat) (w : Nat)
  /-- R423: A host write through VF BAR 2 is translated and performed at its home. -/
  | hostMemoryWrite (vdev : Nat) (off : Nat) (bytes : List (BitVec 8))
  /-- R366: A host read through VF BAR 2 returns the value at the home. -/
  | hostMemoryRead (fn : Nat) (off : Nat) (len : Nat)
  /-- R274: A PCIe FetchAdd on device memory, as used to claim queue slots. -/
  | hostAtomicopFetchadd (vdev : Nat) (off : Nat) (w : Nat)
  /-- R274: A PCIe Swap AtomicOp on device memory. -/
  | hostAtomicopSwap (vdev : Nat) (off : Nat) (w : Nat)
  /-- R274: A PCIe CAS AtomicOp on device memory. -/
  | hostAtomicopCas (vdev : Nat) (off : Nat) (cmp : Nat) (w : Nat)
  /-- R425: A peer's device-memory access, slot claim or packet arrives over Causeway. -/
  | causewayAccess (port : Nat) (vdev : Nat) (op : Nat) (va : Nat) (bytes : List (BitVec 8))
  /-- R419: Package reset runs the boot ROM, verifies an image and releases the system cores. -/
  | packageReset
  /-- R424: Resets every cluster and register of a virtual device. -/
  | virtualDeviceReset (vdev : Nat)
  /-- R424: A cluster passes to another virtual device after its state is cleared. -/
  | clusterReassignment (cluster : Nat) (vdev : Nat)
  /-- R422: A host request produces a signed attestation report. -/
  | attestationRequest (vdev : Nat) (nonce : List (BitVec 8))
  /-- R430: Polrum command 0x01 returns temperatures, power and frequencies. -/
  | readTelemetry
  /-- R430: Polrum command 0x02 returns an attestation report. -/
  | polrumAttest (nonce : List (BitVec 8))
  /-- R430: Polrum command 0x03 writes a flash image slot. -/
  | writeImageSlot (slot : Nat) (bytes : List (BitVec 8))
  /-- R430: Polrum command 0x04 rewrites the version floor record. -/
  | raiseFloor (bytes : List (BitVec 8))
  /-- R430: Polrum command 0x05 resets all dies. -/
  | polrumPackageReset
  /-- R430: Polrum command 0x06 returns error log entries. -/
  | readErrorLog (pier : Nat)
  /-- R429: A sensor crossing 105 or 100 degrees steps the array island frequency and logs it. -/
  | thermalStep (sensor : Nat) (temp : Nat)
  /-- R429: Over-temperature or over-power stops issue, raises the alert and logs code 5. -/
  | thermalTrip (temp : Heat) (power : Draw)
  /-- R266: Written bytes written back from an L1 reach their L2 home, where they merge, record the owner, drop the page's pin and let pending releases and migrations proceed. -/
  | writeBackArrival (core : Nat) (pa : Nat)
  /-- R269: A system core stores to device memory, for example page-table entries, queue headers and SEQ fields, or the machine-check queue's RI. -/
  | systemCoreStore (pa : Nat) (bytes : List (BitVec 8))
  /-- R252: The fabric manager grants a CXL dynamic capacity extent, which adds to the tier's granted space. -/
  | extentGrant (base : Nat) (len : Nat)
  deriving DecidableEq, Repr

end Sys2Proof
end

