-- ==== Sys2Proof/Config.lean ====
section
/-! DEFINITION. Config.lean: the figures of the package (R10, R12, R223) and the values the spec leaves
open, as opaque constants that no proof can evaluate. -/

namespace Sys2Proof.Config

/-- R10: cores of a cluster, clusters of a Span die, contexts of a core. -/
def coresPerCluster : Nat := 8
def clustersPerSpan : Nat := 8
def contexts : Nat := 4

/-- R10, R12: cores and clusters of the package. -/
def numCores : Nat := 512
def numClusters : Nat := 64

/-- R10, R18: Span dies, Pier dies and virtual devices of the package. -/
def numSpans : Nat := 8
def numPiers : Nat := 4
def numDevices : Nat := 64

/-- R223: the pool has 192 units of 8 KB. -/
def poolUnits : Nat := 192
def unitBytes : Nat := 8192

/-- R239: cluster SRAM is 8 MB. -/
def csramBytes : Nat := 8388608

/-- R211, R342: ticks a current context keeps the issue path while another is ready. -/
def quantum : Nat := 1024

/-- R252: the physical ranges of the tiers. -/
def hbmEnd : Nat := 1536 * 2 ^ 30
def lpddrBase : Nat := 2 ^ 42
def lpddrEnd : Nat := 2 ^ 42 + 4096 * 2 ^ 30
def cxlBase : Nat := 2 ^ 45
def cxlEnd : Nat := 2 ^ 45 + 28672 * 2 ^ 30

/-- R254: the least reserve of a Pier die. -/
def chunkReserve : Nat := 1572864

/-- R10, R249, R250: sets of 16 ways of an L2 slice of 64 MB and of an MSC slice of 128 MB. -/
def l2Sets : Nat := 8192
def mscSets : Nat := 16384

/-- R265: the ways and sets of the cluster TLB of 2,048 entries. -/
def tlbWays : Nat := 8
def tlbSets : Nat := 256

/-- The set of a cluster TLB entry, from its virtual device, page and page size: the spec gives none (R265).
Assumption log 13. -/
opaque tlbSet : Nat → Nat → Nat → Nat

/-- The set of a line in its L2 and MSC slice: the spec gives no set hash (R249, R250). Assumption log 7. -/
opaque l2Set : Nat → Nat
opaque mscSet : Nat → Nat

/-- The chunks a second-tier line takes after compression, before the clamp of R253 to 1-4: the
compressed form is internal (R253). Assumption log 8. -/
opaque compressedChunks : List Byte → Nat

/-- Where the search for the second-tier frame of a demotion begins: the spec does not say which frame a
demoted page takes (R267). Assumption log 8. -/
opaque demoteFrame : Nat → Nat

/-- A byte the spec leaves undefined, fresh for each use (R176). Assumption log 9. -/
opaque freeByte : Nat → Byte

/-- The copy engine that serves a row of a gather or scatter, 4d + e, fresh for each use: the spec does not
name it (R178). Assumption log 23. -/
opaque engineOf : Nat → Nat

/-- The second word of an error-log entry of a thermal step or trip, fresh for each use: the spec names no value
there (R427). Assumption log 4. -/
opaque logWord : Nat → Nat

/-- Bytes 168-175 of an attestation report, from the virtual device field and the mask of its clusters: the spec
does not say how the two share eight bytes (R422). Assumption log 10. -/
opaque attestField : Nat → Nat → Nat

/-- SHA-512 (R419, R422). Assumption log 10. -/
opaque sha512 : List Byte → List Byte

/-- Ed25519 and ML-DSA-65 signature checks: key, message, signature (R418, R419). Assumption log 10. -/
opaque edVerify : List Byte → List Byte → List Byte → Bool
opaque mlVerify : List Byte → List Byte → List Byte → Bool

/-- Whether a key pair's hash is one of the four held in the boot ROM (R418). Assumption log 10. -/
opaque keyAccepted : List Byte → Bool

/-- The 256-bit seed that the PUF of a Pier die yields from its helper data in flash (R421). Assumption log 10. -/
opaque pufSeed : Nat → List Byte → List Byte

/-- The peer package that a Causeway port links to (R425): the spec says of no package which. Assumption log 33. -/
opaque causewayPeer : Nat → Nat

/-- The frequency in MHz of the memory island of a Pier die: fixed at the HBM4E rate, which the spec does not give in MHz
(R428). Assumption log 5. -/
opaque memoryFreq : Nat → Nat

/-- The MAC of the version floor record, 32 bytes, under a key derived from the PUF of Pier die 0 (R420): the seed of that
die, the record's first half. Assumption log 10. -/
opaque floorMac : List Byte → List Byte → List Byte

/-- The identity public keys and the signatures made with the identity keys, from the four seeds derived at boot,
concatenated in Pier-die order (R421, R422). Assumption log 10. -/
opaque identityKeys : List Byte → List Byte
opaque edSign : List Byte → List Byte → List Byte
opaque mlSign : List Byte → List Byte → List Byte

/-- DFAULT0.INFO of the instruction-fetch fault of a misaligned bundle address: no cause code of R379 names it.
Assumption log 40. -/
opaque misalignedCause : Nat

end Sys2Proof.Config
end

