-- ==== Sys2Proof/Machine/State.lean ====
section
/-! DEFINITION. Machine/State.lean: everything the spec gives the machine, as plain data, and its reset
values (INVENTORY.md, State). -/

namespace Sys2Proof.Machine

open Sys2Proof

/-! ## Memory -/

/-- Bytes by address: addresses strictly rising, no entry 0 (an unlisted byte reads 0, log 2). -/
structure Memory where
  cells : List Host.Cell
  deriving DecidableEq, Repr

/-- The canonical form of a list of cells above address lo. -/
def Memory.wfFrom : Nat → List Host.Cell → Bool
  | _, [] => true
  | lo, (a, v) :: t => decide (lo ≤ a) && v != 0 && wfFrom (a + 1) t

/-- The canonical form holds: equal memories are equal data. -/
def Memory.wf (m : Memory) : Bool := Memory.wfFrom 0 m.cells

/-! ## Registers, landings and producers -/

/-- Full/empty state of an S register (R205). -/
inductive FE where
  | full | empty | faulted
  deriving DecidableEq, Repr

/-- The unit a landing belongs to (R388), wide units and the beats that write array state included. -/
inductive LUnit where
  | x0 | x1 | lds | nxt | btarget | crd | y0 | y1 | ld | md | cbget | beat
  deriving DecidableEq, Repr

/-- Where a landing goes beside its ring (R45, R48, R51, R388). -/
inductive Dest where
  | none
  | s (code : Nat)
  | p (n : Nat)
  | b (n : Nat)
  | v (n : Nat)
  deriving DecidableEq, Repr

/-- What a beat writes into the array at its landing (R117). -/
inductive BeatWrite where
  | none
  | push (row : Nat) (r0 r1 : List XF19)
  | swap
  | acc (tile : Bool) (row : Nat) (sums : List W32)
  | zero (tile : Bool) (first count : Nat)
  deriving DecidableEq, Repr

/-- A fixed-latency landing in flight (R52, R388). `rem` is its landing tick minus the tick of the last
bundle issued; `home` is the handler depth of its producer, 0 outside handlers. -/
structure Flight where
  unit : LUnit
  dest : Dest
  val : Word
  wide : Lanes
  rem : Nat
  flags : BitVec 5
  toM : Bool
  slot : Nat
  home : Nat
  shadow : Bool
  beat : BeatWrite
  deriving DecidableEq, Repr

/-- The record of a deferred fault (R389): kind, cause field, address field, and its map. -/
structure FaultRec where
  kind : Nat
  cause : Nat
  addr : Nat
  map : Option Nat
  lost : Bool
  deriving DecidableEq, Repr

/-- A violation to log when a refusal reaches its agent, with the work identifier of the item that issued the access
(R398, R399). -/
structure Viol where
  kind : Nat
  addr : Nat
  wid : Nat
  deriving DecidableEq, Repr

/-- How a variable producer ends (R54, R205). -/
inductive Done where
  | value (w : Word)
  | fail (r : FaultRec)
  deriving DecidableEq, Repr

/-- A tensor handle entry as read at its home (R261). -/
structure Handle where
  base : Nat
  kind : Nat
  fmt : Nat
  ndim : Nat
  w : Nat
  pad : Nat
  ext : List Nat
  stride : List Nat
  itab : Nat
  deriving DecidableEq, Repr

/-- A tile request in progress (R162-R164): for a tld its bytes as they were read for it, row by row (one row for a plane
or coded tile), the distance between its rows and LENGTH of a coded tile; the ring offset it claimed, none where it
claimed nothing; its first failure with its row map; and the work identifier of the item that issued it (R399). -/
structure TileOp where
  store : Bool
  off : Option Nat
  dest : TldWhere
  at_ : Nat
  stride : Nat
  rows : List (Option (List Byte))
  coded : Nat
  err : Option (Nat × Nat)
  map : Nat
  wid : Nat
  deriving Repr, DecidableEq

/-- A cpost or coll on its way to the queue header (R171, R181); `bad` is the check made at issue; a coll has claimed its
slot at its issue (R170), and what is left is to write the image there; `wid` is the work identifier it posts at. -/
structure PostOp where
  coll : Bool
  image : List Byte
  queue : Nat
  level : Nat
  bad : Bool
  claimed : Option Nat
  wid : Nat
  deriving DecidableEq, Repr

/-- What a variable producer waits for (R52, R54). -/
inductive Work where
  | load (viol : Option Viol)
  | amo (viol : Option Viol)
  | tile (op : TileOp)
  | post (op : PostOp)
  | tbwait (space loc off seen : Nat)
  | plane (addr p : Nat)
  | pget (port : Nat)
  | lddt (dt : Nat) (lens : Nat) (status : Nat)
  | setpool
  deriving DecidableEq, Repr

/-- An outstanding variable producer: the register it names, where it completes (0 the live register,
k + 1 frame k, R391), whether it names the shadow copy (R204), and its result once known. -/
structure Prod where
  dst : Nat
  target : Nat
  shadow : Bool
  depth : Nat
  work : Work
  done : Option Done
  deriving DecidableEq, Repr

/-- A codebook register (R139). -/
structure Codebook where
  n : Nat
  tag : Nat
  entry : List W32
  pop : List W32
  deriving DecidableEq, Repr

/-- R139: the codebook register after reset. -/
def Codebook.reset : Codebook := ⟨1, 0, [], []⟩

/-- One bank of a decoder table (R126): 16 four-bit lengths, its tag and its in-flight count. -/
structure DBank where
  valid : Bool
  tag : Nat
  lens : Nat
  count : Nat
  deriving DecidableEq, Repr

/-- A decoder table (R126). -/
structure DTable where
  b0 : DBank
  b1 : DBank
  g : Nat
  deriving DecidableEq, Repr

/-- R126: every bank invalid, G = 0. -/
def DTable.reset : DTable := ⟨⟨false, 0, 0, 0⟩, ⟨false, 0, 0, 0⟩, 0⟩

/-- The state of a result port (R146, R147, R333). -/
inductive PortRes where
  | never
  | empty
  | value (w : Word)
  | failed (code : Nat)
  deriving DecidableEq, Repr

/-- A context's copies in the port-driven units (R143). -/
structure Units where
  ports : Tbl Word
  val0 : Lanes
  val1 : Lanes
  res : Tbl PortRes
  dedup : Option (List Nat)
  dedupN : Nat
  rcu : Option (List Nat)
  rcuN : Nat
  pops : List Nat
  pairs : Nat
  used : Bool
  deriving DecidableEq, Repr

/-- R143: the reset copy. -/
def Units.reset : Units :=
  ⟨[], List.replicate 128 0, List.replicate 128 0, [], none, 0, none, 0, [], 0, false⟩

/-- An operation of a port-driven unit with its latched operands (R143, R195), the unit copies and codebook registers that
its checks and its work see, the code it fails with, and the cycles it occupies: those after `start` up to `last`
(R147, R201). -/
structure UnitOp where
  ctx : Nat
  start : Nat
  trig : Nat
  ports : Tbl Word
  val0 : Lanes
  val1 : Lanes
  cbctl : Word
  cbtol : Word
  units : Units
  cb : Tbl Codebook
  code : Option Nat
  last : Nat
  deriving DecidableEq, Repr

/-- A store that failed its checks, held until the next ordering bundle (R157). -/
structure StoreFault where
  cause : Nat
  addr : Nat
  bundle : Nat
  deriving DecidableEq, Repr

/-- The record a context runs, with the words of it that a suspension point writes back: FLAGS, priority and affinity, and
the progress counter (R329, R336, R350), and the ticks since its pick-up. -/
structure Held where
  addr : Nat
  launch : Nat
  wid : Nat
  save : Nat
  prio : Nat
  ticks : Nat
  flags : Nat
  aff : Nat
  prog : Nat
  deriving DecidableEq, Repr

/-- What a fault leaves in DFAULT0-DFAULT3 (R212). -/
structure DFault where
  file : Nat
  reg : Nat
  info : Nat
  addr : Nat
  map2 : Nat
  map3 : Nat
  deriving DecidableEq, Repr

/-- A trap to be taken (R379): its cause, TCAUSE.CODE, TINFO, its DFAULT record if it has one, the
register whose map entry it raises (R389), and whether a played beat raised it (R138). -/
structure Raise where
  cause : Nat
  code : Nat
  tinfo : Nat
  df : Option DFault
  mapOf : Option Nat
  play : Bool
  deriving DecidableEq, Repr

/-- The effect a bundle has at the boundary after it (R84-R90, R97), waiting for the context's
producers. -/
inductive Ctl where
  | none
  | trap (code : Nat)
  | pmark
  | suspend
  | endItem (addr : Nat)
  | park (dst space loc off seen : Nat)
  | reti (undo : List Host.Cell)
  | uret (undo : List Host.Cell)
  | heavy
  deriving DecidableEq, Repr

/-- Why a context is stalled, in the priority order of R322. -/
inductive Stall where
  | wfe | mem | unit | ring | scale | dec | fe
  deriving DecidableEq, Repr

/-- s60-s63 of a user-level handler kept while a supervisor trap nests on it, with the handler depth of the code
that the trap interrupted and their fault maps (R204, R389, R393; log 44). -/
structure Shadow where
  depth : Nat
  s : Tbl Word
  fe : Tbl FE
  maps : List (Nat × Nat)
  deriving DecidableEq, Repr

/-- One hardware context (R203, R209). `asked` says that its pre-emption request is the one its cluster raised (R345). -/
structure Ctx where
  s : Tbl Word
  fe : Tbl FE
  sh : Tbl Word
  shfe : Tbl FE
  kept : List Shadow
  maps : List (Nat × Nat)
  shmaps : List (Nat × Nat)
  v : Tbl Lanes
  p : Nat
  b : Tbl Word
  prep : Tbl Nat
  x0 : List Word
  x1 : List Word
  wide0 : Tbl (List Lanes)
  wide1 : Tbl (List Lanes)
  flights : List Flight
  prods : List Prod
  cb : Tbl Codebook
  dt : Tbl DTable
  ev : Bool
  nxp : Nat
  level : Nat
  uih : Bool
  preq : Bool
  preqTicks : Nat
  asked : Bool
  upend : Nat
  timer : Bool
  notice : Bool
  rm : Nat
  vstat : BitVec 5
  mstat : BitVec 5
  mctl : Word
  cbctl : Word
  cbtol : Word
  dfault : Tbl Word
  dprog : Word
  uivec : Word
  uipc : Word
  tcause : Word
  tinfo : Word
  trappc : Word
  tfbase : Word
  depth : Nat
  vlog : Tbl Word
  counters : Tbl Word
  units : Units
  storeFault : Option StoreFault
  phaseAcq : List (Nat × Nat)
  phaseRel : List (Nat × Nat)
  pc : Nat
  held : Option Held
  killed : Bool
  waiting : Bool
  stall : Option Stall
  claimWait : Option (Bool × Nat × Nat)
  claimed : Option (Bool × Nat)
  pend : Ctl
  deriving DecidableEq, Repr

/-- R203, R210-R219: a context after package reset. -/
def Ctx.reset : Ctx :=
  { s := [], fe := [], sh := [], shfe := [], kept := [], maps := [], shmaps := [], v := [], p := 1, b := [], prep := [],
    x0 := [], x1 := [], wide0 := [], wide1 := [], flights := [], prods := [], cb := [], dt := [],
    ev := false, nxp := 0, level := 0, uih := false, preq := false, preqTicks := 0, asked := false, upend := 0,
    timer := false, notice := false, rm := 0, vstat := 0, mstat := 0, mctl := 0x0000008800000000,
    cbctl := 0x10, cbtol := 0, dfault := [], dprog := 0, uivec := 0, uipc := 0, tcause := 0, tinfo := 0,
    trappc := 0, tfbase := 0, depth := 0, vlog := [], counters := [], units := Units.reset,
    storeFault := none, phaseAcq := [], phaseRel := [], pc := 0, held := none,
    killed := false, waiting := false, stall := none, claimWait := none, claimed := none, pend := .none }

/-! ## A core -/

/-- A tile on an operand ring (R120, R224); `coded` is LENGTH of an entropy-coded tile (R293), 0 where it
is not known; `by_` is the context that claimed it. -/
structure Tile where
  valid : Bool
  failed : Bool
  counted : Bool
  gen : Nat
  length : Nat
  offset : Nat
  slot : Nat
  prod : Bool
  coded : Nat
  by_ : Nat
  deriving DecidableEq, Repr

/-- An open mrun play with its latched entries (R137, R138); `home` is the handler depth of the code that issued it,
whose ticks alone advance it. -/
structure Play where
  ctx : Nat
  home : Nat
  entries : List W32
  start : Nat
  length : Nat
  pos : Nat
  iter : Nat
  left : Nat
  deriving DecidableEq, Repr

/-- A byte held by L1: a written byte, or a byte filled clean (R232, R233, R235). -/
structure L1Byte where
  val : Byte
  written : Bool
  poison : Bool
  deriving DecidableEq, Repr

/-- An L1 line: its physical line address, the pool unit of its way, the context that last wrote each of its sectors,
the latest last (R257), its traffic class and the bytes it holds. -/
structure L1Line where
  pa : Nat
  unit : Nat
  writers : List (Nat × Nat)
  tc : Nat
  bytes : Tbl L1Byte
  deriving DecidableEq, Repr

/-- A TLB entry (R265): virtual device, the page's first address, its size and its leaf entry. -/
structure TlbEntry where
  vdev : Nat
  va : Nat
  size : Nat
  pte : Word
  deriving DecidableEq, Repr

/-- A setpool whose conversions have not ended (R93, R228). -/
structure Setpool where
  ctx : Nat
  b0 : Nat
  b1 : Nat
  b2 : Nat
  deriving DecidableEq, Repr

/-- A ring tile that was outstanding at an array save (R224): the ring and offset it claimed, and, once its tld has completed
behind the save, whether it failed. -/
structure Late where
  ringB : Bool
  off : Nat
  done : Option Bool
  deriving DecidableEq, Repr

/-- What arrsave saved, by which context's handler at which depth, the depth of the play saved, LENGTH of its coded tiles
and the segments that the decoder will decode again (R92, R297, R321, R397), and the ring tiles then outstanding (R224). -/
structure ArrSaved where
  by_ : Nat
  depth : Nat
  home : Nat
  owner : Option Nat
  coded : List Nat
  segs : Nat
  late : List Late
  deriving DecidableEq, Repr

/-- One entry of the shuffle-pattern memory (R110): two banks of 128 selectors and the active bank. -/
structure Pattern where
  bank0 : Option (List Nat)
  bank1 : Option (List Nat)
  active1 : Bool
  deriving DecidableEq, Repr

/-- A segment the decoder found malformed (R297): reason and bit offset. -/
structure Malformed where
  seg : Nat
  reason : Nat
  at_ : Nat
  deriving DecidableEq, Repr

/-- One core (R15, R115, R209). `l1upset` lists the L1 sectors that hold an uncorrectable error not yet found (R235);
`clock` counts the core's cycles since reset, which nothing writes (R81, R201); `saved` the array saves of handlers, the
latest first (R92). -/
structure Core where
  ctxs : Tbl Ctx
  cur : Nat
  run : Nat
  pool : Memory
  b0 : Nat
  b1 : Nat
  b2 : Nat
  setpool : Option Setpool
  lwbase : Word
  pbound : Nat
  tvec : Word
  l1 : List L1Line
  l1upset : List Nat
  utlb : List TlbEntry
  acc0 : Tbl (List W32)
  acc1 : Tbl (List W32)
  active : Tbl (List XF19)
  shadow : Tbl (List XF19)
  arc : Nat
  brc : Nat
  ahd : Nat
  atl : Nat
  bhd : Nat
  btl : Nat
  atiles : List Tile
  btiles : List Tile
  bslot : Nat
  scales : List (BitVec 16)
  scalesIn : List (Nat × List (BitVec 16))
  bscales : Option (List (BitVec 16))
  fifo : List Nat
  fifoSegs : Nat
  replay : Nat
  malformed : Option Malformed
  play : Option Play
  owner : Option Nat
  saved : List ArrSaved
  shuffle : Tbl Pattern
  beats : Tbl W32
  unitOps : Tbl (Option UnitOp)
  counters : Tbl Word
  clock : Nat
  deriving DecidableEq, Repr

/-- R115, R209-R218: a core after package reset. -/
def Core.reset : Core :=
  { ctxs := [], cur := 0, run := 0, pool := ⟨[]⟩, b0 := 32, b1 := 128, b2 := 184, setpool := none,
    lwbase := 0, pbound := 4096, tvec := 0, l1 := [], l1upset := [], utlb := [], acc0 := [], acc1 := [], active := [],
    shadow := [], arc := 0, brc := 0, ahd := 0, atl := 0, bhd := 0, btl := 0, atiles := [], btiles := [],
    bslot := 0, scales := [], scalesIn := [], bscales := none, fifo := [], fifoSegs := 0,
    replay := 0, malformed := none, play := none, owner := none, saved := [], shuffle := [], beats := [],
    unitOps := [], counters := [], clock := 0 }

/-! ## Clusters, Pier dies, virtual devices -/

/-- A continuation record on a list or park list (R278, R281): its address, virtual device, launch and
the cycle at which it entered. -/
structure Entry where
  addr : Nat
  launch : Nat
  since : Nat
  deriving DecidableEq, Repr

/-- A parked record (R279, R332): the barrier it waits on, its producer's register, and whether the park
has reached the barrier's home. -/
structure Parked where
  entry : Entry
  space : Nat
  loc : Nat
  off : Nat
  seen : Nat
  dst : Nat
  applied : Bool
  deriving DecidableEq, Repr

/-- The identifiers of one dispenser held by a cluster, and its DONE flag (R318). -/
structure Batch where
  launch : Nat
  disp : Nat
  ids : List Nat
  done : Bool
  deriving DecidableEq, Repr

/-- One cluster (R12, R239, R278, R382), with the virtual device that holds it, none where it is withdrawn (R18). -/
structure Cluster where
  csram : Memory
  ageTicks : Nat
  timers : Tbl Word
  device : Option Nat
  lists : Tbl (List Entry)
  parked : List Parked
  batches : List Batch
  ctlb : List TlbEntry
  idle : Nat
  deriving DecidableEq, Repr

/-- A cluster after package reset. -/
def Cluster.reset : Cluster :=
  { csram := ⟨[]⟩, ageTicks := 65536, timers := [], device := some 0, lists := [], parked := [], batches := [],
    ctlb := [], idle := 0 }

/-- A page waiting to be promoted by an armed hint (R287): the entry, its virtual device and the page. -/
structure PrefReq where
  vdev : Nat
  hint : Nat
  page : Nat
  deriving DecidableEq, Repr

/-- An allocating write waiting for chunks (R255). -/
structure AllocWait where
  migration : Nat
  chunks : Nat
  deriving DecidableEq, Repr

/-- One Pier die's registers and lists (R254, R267, R287, R427). -/
structure Pier where
  chunkRsv : Nat
  free : List Nat
  migctl : Word
  frames : List Nat
  log : Tbl (Nat × Nat)
  logHead : Nat
  logCount : Nat
  prefetch : List PrefReq
  wcache : List TlbEntry
  allocWaits : List AllocWait
  chunkIrq : Bool
  fabric : Nat
  deriving DecidableEq, Repr

/-- A Pier die after package reset (R254, R267, R427; log 5). -/
def Pier.reset : Pier :=
  { chunkRsv := 1572864, free := [], migctl := 0x0040001000000200, frames := [], log := [], logHead := 0,
    logCount := 0, prefetch := [], wcache := [], allocWaits := [], chunkIrq := false, fabric := 1000 }

/-- One virtual device's configuration block (R251, R273, R288, R304, R323, R423). -/
structure VDev where
  mscway : Tbl Nat
  mscpol : Nat
  ptbase : Word
  htbase : Word
  cqtab : Tbl Word
  lqtab : Tbl Word
  mcqbase : Word
  hintbase : Word
  hwbase : Word
  hvlog : Tbl Word
  pfhit : Word
  pfmiss : Word
  pfdrop : Word
  mcheckIrq : Bool
  deriving DecidableEq, Repr

/-- A virtual device after package reset (R251, R273). -/
def VDev.reset : VDev :=
  { mscway := [], mscpol := 0x10, ptbase := 0, htbase := 0, cqtab := [], lqtab := [], mcqbase := 0,
    hintbase := 0, hwbase := 0, hvlog := [], pfhit := 0, pfmiss := 0, pfdrop := 0, mcheckIrq := false }

/-! ## Package memory -/

/-- The last access to a line, for MSC placement (R250). -/
inductive Access where
  | read | write | atomic
  deriving DecidableEq, Repr

/-- A line in L2 or the MSC (R249, R250, R257): sectors valid and dirty as bit sets, its owner, the
traffic class and last access that place it. -/
structure Line where
  pa : Nat
  valid : Nat
  dirty : Nat
  ownVdev : Nat
  ownCtx : Nat
  vdev : Nat
  tc : Nat
  last : Access
  way : Nat
  deriving DecidableEq, Repr

/-- The releasers on record for a synchronisation variable (R160, R360). -/
structure PhaseRec where
  pa : Nat
  core : Nat
  scope : Nat
  deriving DecidableEq, Repr

/-- A migration in progress (R268): the leaf entry's address, the page, its old and new frame. -/
structure Migration where
  vdev : Nat
  pte : Nat
  va : Nat
  old : Nat
  new : Nat
  tier : Nat
  chunked : Bool
  deriving DecidableEq, Repr

/-- A hint entry being served (R287, R305). -/
structure Hint where
  vdev : Nat
  idx : Nat
  va : Nat
  base : Nat
  pages : Nat
  left : Nat
  dropped : Nat
  deriving DecidableEq, Repr

/-! ## Work -/

/-- A dispenser's state at the scheduler (R318). -/
structure Disp where
  first : Nat
  count : Nat
  next : Nat
  ret : List Nat
  deriving DecidableEq, Repr

/-- A live item of a launch: its record slot, its work identifier and its re-runs (R330, RETRY). -/
structure Item where
  slot : Nat
  wid : Nat
  retry : Nat
  deriving DecidableEq, Repr

/-- A launch the scheduler has taken (R325-R334). `heavies` keeps, for the record slot of a heavy capture, LENGTH of its
coded B tiles and the segments decoded ahead, which the restore needs (R297, R307, R324; log 15). -/
structure Launch where
  vdev : Nat
  queue : Nat
  qva : Nat
  slotVa : Nat
  hdr : Nat
  arg : Nat
  scope : Nat
  pc : Nat
  save : Nat
  recs : Nat
  nrec : Nat
  nfield : Nat
  prio : Nat
  priaff : Nat
  widths : List Nat
  exts : List Nat
  policy : Nat
  disps : List Disp
  next : Nat
  live : List Item
  retries : List Item
  kills : List (Nat × Nat)
  killedAll : Bool
  lastCluster : Nat
  placed : Bool
  ended : Bool
  heavies : Tbl (List Nat × Nat)
  deriving DecidableEq, Repr

/-- Queue state of a serving agent (R275): the take index of the queue whose header stands at `queue`. -/
structure TakeIdx where
  vdev : Nat
  queue : Nat
  launchQ : Bool
  ti : Nat
  deriving DecidableEq, Repr

/-- The posted and collective bits of a slot, kept at its home by physical address (R275), and the poster:
its context number, the level and the work identifier it posted at. -/
structure SlotBits where
  pa : Nat
  posted : Bool
  coll : Bool
  by_ : Nat
  level : Nat
  wid : Nat
  deriving DecidableEq, Repr

/-- A packet being served (R172-R176): its slot, its poster (none for the host or a peer), the level its
accesses are made at, its expected bytes, the handle entries and index vector read at take, the pages
translated and pinned at take, and the cores whose running setpool had issued before its check, where it reaches a unit in
transition (R230). -/
structure Packet where
  vdev : Nat
  queue : Nat
  hdr : Nat
  slot : Nat
  eng : Nat
  n : Nat
  image : List Byte
  poster : Option Nat
  level : Nat
  wid : Nat
  exp : Nat
  src : Option Handle
  dst : Option Handle
  idx : List Nat
  tlb : List TlbEntry
  pinned : List Nat
  late : List Nat
  deriving DecidableEq, Repr

/-- A gather or scatter of an instruction in progress (R177-R179): the issuing context, what its two
descriptors name, the lanes still to serve, and the frames its rows have pinned (R266). -/
structure GatherOp where
  scatter : Bool
  core : Nat
  ctx : Nat
  level : Nat
  wid : Nat
  handle : Except Nat Handle
  hva : Nat
  base : Nat
  len : Nat
  dim : Nat
  idx : List Nat
  rs : Nat
  rows : Nat
  tbSpace : Nat
  tbLoc : Nat
  tb : Nat
  uirq : Bool
  bitmap : Nat
  todo : List Nat
  pinned : List Nat
  deriving DecidableEq, Repr

/-- A collective party (R180, R181, R312): its packet, the core that posted it and the core that receives,
whether its packet has been taken, announced and ended, the planes sent to each receiver and forwarded by
it as a relay, the transfers it has stopped, and the context that posted it (R257). -/
structure Party where
  vdev : Nat
  slot : Nat
  hdr : Nat
  eng : Nat
  wid : Nat
  group : Nat
  tag : Nat
  rank : Nat
  core : Nat
  rcore : Nat
  op : Nat
  planes : Nat
  npart : Nat
  root : Nat
  tcount : Nat
  scope : Nat
  src : Nat
  dst : Nat
  cnt : Nat
  tb : Nat
  entries : List Nat
  taken : Bool
  announced : Bool
  done : Bool
  sent : Tbl Nat
  stopped : List Nat
  own : Nat
  deriving DecidableEq, Repr

/-- A cancel, truncation or error notice in flight (R314, R315): from rank, to rank of the party with
the tag and group, the block's sender and its tile. -/
structure PlaneMsg where
  vdev : Nat
  group : Nat
  tag : Nat
  src : Nat
  dst : Nat
  block : Nat
  tile : Nat
  planes : Nat
  deriving DecidableEq, Repr

/-- The announcement of a party on another package, held by the copy engines here (R312): the package, and where its planes
go there. -/
structure Remote where
  peer : Nat
  vdev : Nat
  group : Nat
  tag : Nat
  rank : Nat
  core : Nat
  dst : Nat
  cnt : Nat
  deriving DecidableEq, Repr

/-- What a message of a collective between packages is (R312-R315, R425). -/
inductive WireKind where
  | announce | plane | failed | cancel | truncation | notice
  deriving DecidableEq, Repr

/-- A message of a collective that waits to leave for a peer package (R425; its format: log 33): from rank, to rank of the
parties of a tag and group, the block's sender and its tile; for an announcement the core, DST and CNT of its party; for a
plane its number, whether its landing releases at cluster scope or wider, and its bytes. -/
structure Wire where
  peer : Nat
  vdev : Nat
  kind : WireKind
  group : Nat
  tag : Nat
  src : Nat
  dst : Nat
  block : Nat
  tile : Nat
  planes : Nat
  wide : Bool
  core : Nat
  at_ : Nat
  cnt : Nat
  data : List Byte
  deriving DecidableEq, Repr

/-- A barrier update in flight to its home (R167): arrivals, bytes expected, bytes counted, ERR, and the
operand of a tbinit (R168). -/
structure BarMsg where
  vdev : Nat
  space : Nat
  loc : Nat
  off : Nat
  arrive : Nat
  expect_ : Nat
  count : Nat
  err : Bool
  init : Option Nat
  deriving DecidableEq, Repr

/-- A gather or scatter with UIRQ that has counted its last row toward a phase (R285). -/
structure UirqWait where
  space : Nat
  loc : Nat
  off : Nat
  phase : Nat
  ctx : Nat
  deriving DecidableEq, Repr

/-- Releases of cluster scope or wider that a scratchpad barrier or plane counter of a core carries (R363, R364): in the
phase still pending, or in a completed phase or a counted plane. -/
structure WideSync where
  core : Nat
  at_ : Nat
  done : Bool
  deriving DecidableEq, Repr

/-- A write of hardware into the queues and records of a virtual device (R268, R275-R279, R288): the bytes of a field or a
LINK; STATUS of a slot and the context that it interrupts (R285); an entry of a LOG; RI up to the take index; a machine-check
record; KILLED of a record; a parked record that leaves its barrier; the pages of an armed hint entry translated (R305). -/
inductive HwOp where
  | put (va : Nat) (bs : List Byte) (own : Nat)
  | status (slot w own : Nat) (irq : Option Nat)
  | log (hdr addr kind : Nat) (isFault : Bool) (agent wid own : Nat)
  | ri (hdr : Nat) (launchQ : Bool) (own : Nat)
  | mcheck (pa kind ctx sect time : Nat)
  | killed (addr : Nat)
  | unpark (cl : Nat) (k : Parked) (result : Nat)
  | arm (h : Hint)
  deriving DecidableEq, Repr

/-- Such a write that waits in its walk for a migrating page. -/
structure HwWait where
  vdev : Nat
  op : HwOp
  deriving DecidableEq, Repr

/-! ## The bundle being issued, and the machine -/

/-- An operation of the host or of a peer: an access, or a peer's message of a collective (R274, R312, R423, R425). -/
inductive OutOp where
  | write (bs : List Byte)
  | read (n : Nat)
  | add (w : Nat)
  | swap (w : Nat)
  | cas (cmp w : Nat)
  | coll (bs : List Byte)
  deriving DecidableEq, Repr

/-- An access from outside: the peer that makes it (none for the host), the virtual device, its device address. -/
structure Outside where
  peer : Option Nat
  vdev : Nat
  va : Nat
  op : OutOp
  deriving DecidableEq, Repr

/-- Why a bundle had no effect (R40, R380, R6): a precise fault, a stall, the wait of a ring tld for room: the ring, the
bytes claimed and LENGTH of a coded tile (R163), or a fetch that waits for a migrating page (R39, R268). -/
inductive Void where
  | trap (r : Raise)
  | stall (c : Stall)
  | claim (ringB : Bool) (len coded : Nat)
  | fetch
  deriving DecidableEq, Repr

/-- A tst of the bundle being issued, whose source is read once the bundle's other slots have run (R97, R164): its
descriptors, its level, LWBASE as its slot found it (R91), what its handle and index-table reads gave, and the number of its
producer. -/
structure TstReq where
  a : Nat
  b : Nat
  level : Nat
  lwbase : Word
  entries : Except (Nat × Nat) (Handle × List Byte)
  prod : Nat
  deriving DecidableEq, Repr

/-- The bundle being issued (the model's bookkeeping, log 11): its address and the next one's, the slots
still to run, the S and V slots run so far, the core before the bundle's landings (which crd and the C
slot's scratchpad reads see, R91, R155), the context after them (which every source is read from, R8),
its boundary effect, whether it marks a pre-emption point (R84), whether it was void, whether it
has issued a beat (R428), and its tst. -/
structure Issue where
  addr : Nat
  next : Nat
  slots : List Instr
  pos : Nat
  nS : Nat
  nV : Nat
  before : Option Core
  rd : Option Ctx
  ctl : Ctl
  mark : Bool
  void : Option Void
  beat : Bool
  tst : Option TstReq
  deriving DecidableEq, Repr

/-- No bundle is being issued. -/
def Issue.none : Issue :=
  { addr := 0, next := 0, slots := [], pos := 0, nS := 0, nV := 0, before := Option.none,
    rd := Option.none, ctl := .none, mark := false, void := Option.none, beat := false, tst := Option.none }

/-- Whose move is next (log 12): an event of the part, or a bundle of a core. -/
inductive Move where
  | event (i : Instr)
  | core (n : Nat)
  deriving DecidableEq, Repr

/-- The machine. `turns` holds, for each serving agent, the virtual device and queue it served last (R275); `puf` the
seeds derived at boot, one a Pier die, and `sysPc` where the system cores were released (R419, R421); `time` the package
time stamp (R259); `waitq` the accesses of the host and of peers, and `hwq` the writes of hardware, that wait in their walks
for a migrating page (R268); `lost` the lines whose chunks lay in a removed extent (R256); `temps` the reading of sensor k of
Span die n at 16 n + k (R429). -/
structure State where
  cores : Tbl Core
  clusters : Tbl Cluster
  piers : Tbl Pier
  vdevs : Tbl VDev
  mem : Memory
  poison : List Nat
  upset : List Nat
  l2 : List Line
  msc : List Line
  phases : List PhaseRec
  tierOpen : Bool
  chunkOf : Tbl (List Nat)
  extents : List (Nat × Nat)
  removed : List (Nat × Nat)
  lost : List Nat
  pins : Tbl Nat
  access : Tbl Nat
  migrations : List Migration
  hints : List Hint
  takes : List TakeIdx
  turns : Tbl (Nat × Nat)
  slotBits : List SlotBits
  launches : Tbl Launch
  packets : List Packet
  gathers : List GatherOp
  parties : List Party
  cancels : List PlaneMsg
  truncs : List PlaneMsg
  notices : List PlaneMsg
  remotes : List Remote
  wire : List Wire
  barMsgs : List BarMsg
  uirqs : List UirqWait
  wides : List WideSync
  waitq : List Outside
  hwq : List HwWait
  flash : Memory
  bootstat : List Byte
  bootver : Nat
  recovery : Bool
  puf : List Byte
  sysPc : Option Nat
  time : Nat
  stopped : Bool
  alert : Bool
  arrayFreq : Tbl Nat
  temps : Tbl Nat
  power : Nat
  reply : List Byte
  cur : Nat
  agenda : List Move
  served : Nat
  burst : Nat
  issue : Issue
  fresh : Nat
  deriving DecidableEq, Repr

/-- Why the machine stops with a fault. -/
inductive Fault where
  /-- Raised by step when a thermal trip has stopped issue (R429): only a package reset resumes work, and
  the agenda holds none. Safe: the package issues nothing. -/
  | packageStopped
  deriving DecidableEq, Repr

/-- Why an instruction has no meaning. -/
inductive Refusal where
  /-- Raised by exec for an instruction whose meaning is not written. Safe: nothing runs. -/
  | notModelled (mnemonic : String)
  deriving DecidableEq, Repr

/-- The machine right after package reset. -/
def State.reset : State :=
  { cores := [], clusters := [], piers := [], vdevs := [], mem := ⟨[]⟩, poison := [], upset := [], l2 := [], msc := [],
    phases := [], tierOpen := false, chunkOf := [], extents := [], removed := [], lost := [], pins := [], access := [],
    migrations := [], hints := [], takes := [], turns := [], slotBits := [], launches := [], packets := [], gathers := [],
    parties := [], cancels := [], truncs := [], notices := [], remotes := [], wire := [], barMsgs := [], uirqs := [],
    wides := [], waitq := [], hwq := [], flash := ⟨[]⟩, bootstat := [], bootver := 0, recovery := false, puf := [],
    sysPc := none, time := 0, stopped := false, alert := false, arrayFreq := [], temps := [], power := 0, reply := [],
    cur := 0, agenda := [], served := 0, burst := 0, issue := Issue.none, fresh := 0 }

end Sys2Proof.Machine
end

