-- ==== Sys2Proof/Machine/Num.lean ====
section
/-! DEFINITION. Machine/Num.lean: number formats, exact values, rounding, flags and conversions (R20-R35). -/

namespace Sys2Proof.Machine

open Sys2Proof

/-- The sticky flags of R32 as bits 4:0. -/
abbrev FlagSet := BitVec 5

def fNone : FlagSet := 0
def fNV : FlagSet := 16
def fDZ : FlagSet := 8
def fOF : FlagSet := 4
def fUF : FlagSet := 2
def fNX : FlagSet := 1

/-- The rounding modes of R31. -/
inductive RMode where
  | rne | rtz | rup | rdn
  deriving DecidableEq, Repr

/-- R31: VCTL.RM. -/
def RMode.ofCode : Nat → RMode
  | 1 => .rtz | 2 => .rup | 3 => .rdn | _ => .rne

/-- The value of an encoding (R21-R23): a NaN with its sign and class, an infinity, or
(-1)^neg × m × 2^e; m = 0 is a zero of that sign. -/
inductive FV where
  | nan (neg sig : Bool)
  | inf (neg : Bool)
  | fin (neg : Bool) (m : Nat) (e : Int)
  deriving DecidableEq, Repr

/-- R20: exponent and fraction widths and bias. -/
def fbitsOf : CvtFmt → Nat
  | .fp32 => 23 | .fp16 => 10 | .bf16 => 7 | .e4m3 => 3 | .e5m2 => 2 | .i32 => 0 | .i8 => 0
def ebitsOf : CvtFmt → Nat
  | .fp32 => 8 | .fp16 => 5 | .bf16 => 8 | .e4m3 => 4 | .e5m2 => 5 | .i32 => 0 | .i8 => 0
def biasOf : CvtFmt → Nat
  | .fp32 => 127 | .fp16 => 15 | .bf16 => 127 | .e4m3 => 7 | .e5m2 => 15 | .i32 => 0 | .i8 => 0

/-- R20: the width of an element. -/
def widthOf : CvtFmt → Nat
  | .fp32 => 32 | .fp16 => 16 | .bf16 => 16 | .e4m3 => 8 | .e5m2 => 8 | .i32 => 32 | .i8 => 8

/-- The encoding of sign, exponent field and fraction together as one magnitude. -/
def signed (f : CvtFmt) (neg : Bool) (mag : Nat) : Nat :=
  mag + (if neg then 2 ^ (ebitsOf f + fbitsOf f) else 0)

/-- The largest exponent field holding finite values, and the magnitude code of the largest finite value. -/
def maxMag (f : CvtFmt) : Nat :=
  match f with
  | .e4m3 => 0x7E
  | _ => (2 ^ ebitsOf f - 1) * 2 ^ fbitsOf f - 1

/-- R21, R23: the canonical NaN, sign 0. -/
def canonNaN (f : CvtFmt) : Nat :=
  match f with
  | .e4m3 => 0x7F
  | _ => (2 ^ ebitsOf f - 1) * 2 ^ fbitsOf f + 2 ^ (fbitsOf f - 1)

/-- The magnitude code of an infinity; E4M3 has none and gives its NaN code (R33). -/
def infMag (f : CvtFmt) : Nat :=
  match f with
  | .e4m3 => 0x7F
  | _ => (2 ^ ebitsOf f - 1) * 2 ^ fbitsOf f

/-- Value(x, fmt) of R35 for the floating formats. -/
def value (f : CvtFmt) (x : Nat) : FV :=
  let fr := x % 2 ^ fbitsOf f
  let ex := x / 2 ^ fbitsOf f % 2 ^ ebitsOf f
  let neg := x / 2 ^ (fbitsOf f + ebitsOf f) % 2 == 1
  if f == .e4m3 && ex == 15 && fr == 7 then .nan neg false
  else if f != .e4m3 && ex == 2 ^ ebitsOf f - 1 then
    if fr == 0 then .inf neg else .nan neg (fr < 2 ^ (fbitsOf f - 1))
  else if ex == 0 then .fin neg fr (1 - (biasOf f : Int) - fbitsOf f)
  else .fin neg (2 ^ fbitsOf f + fr) ((ex : Int) - biasOf f - fbitsOf f)

def FV.isNaN : FV → Bool
  | .nan _ _ => true
  | _ => false
def FV.isSig : FV → Bool
  | .nan _ s => s
  | _ => false
def FV.isInf : FV → Bool
  | .inf _ => true
  | _ => false
def FV.isZero : FV → Bool
  | .fin _ 0 _ => true
  | _ => false
def FV.neg : FV → Bool
  | .nan n _ => n
  | .inf n => n
  | .fin n _ _ => n
def FV.negate : FV → FV
  | .nan n s => .nan (!n) s
  | .inf n => .inf (!n)
  | .fin n m e => .fin (!n) m e

/-- Whether a magnitude cut to q with remainder r of divisor d is stepped up (R31). -/
def stepUp (mode : RMode) (neg : Bool) (q r d : Nat) : Bool :=
  match mode with
  | .rne => decide (d < 2 * r) || (2 * r == d && q % 2 == 1)
  | .rtz => false
  | .rup => !neg && r != 0
  | .rdn => neg && r != 0

/-- num/den × 2^e rounded to a multiple of 2^k: the multiple and whether it is inexact. -/
def roundAt (mode : RMode) (neg : Bool) (num den : Nat) (e k : Int) : Nat × Bool :=
  let sh := k - e
  let n := if sh < 0 then num * 2 ^ (-sh).toNat else num
  let d := if sh < 0 then den else den * 2 ^ sh.toNat
  let q := n / d
  let r := n % d
  ((if stepUp mode neg q r d then q + 1 else q), r != 0)

/-- The exponent E with 2^E ≤ num/den × 2^e < 2^(E + 1). -/
def expo (num den : Nat) (e : Int) : Int :=
  let l := (Nat.log2 num : Int) - Nat.log2 den
  let below := if l < 0 then decide (num * 2 ^ (-l).toNat < den) else decide (num < den * 2 ^ l.toNat)
  (if below then l - 1 else l) + e

/-- num/den × 2^e rounded to p significant bits with an unbounded exponent: significand in
[2^(p-1), 2^p), its exponent, and whether it is inexact (R33). -/
def roundP (mode : RMode) (neg : Bool) (num den : Nat) (e : Int) (p : Nat) : Nat × Int × Bool :=
  let k := expo num den e - (p - 1 : Nat)
  let (m, inex) := roundAt mode neg num den e k
  if m == 2 ^ p then (2 ^ (p - 1), k + 1, inex) else (m, k, inex)

/-- Whether a mode rounds an overflow of this sign toward zero (R33). -/
def towardZero (mode : RMode) (neg : Bool) : Bool :=
  match mode with
  | .rne => false
  | .rtz => true
  | .rup => neg
  | .rdn => !neg

/-- Round(v, fmt, mode) of R35 for a nonzero real (-1)^neg × num/den × 2^e, with the sat column of R33. -/
def roundReal (f : CvtFmt) (mode : RMode) (sat neg : Bool) (num den : Nat) (e : Int) : Nat × FlagSet :=
  let p := fbitsOf f + 1
  let (m, k, inex) := roundP mode neg num den e p
  let emin : Int := 1 - biasOf f
  let ex : Int := k + fbitsOf f
  let field := ex - emin + 1
  let mag := (field.toNat) * 2 ^ fbitsOf f + (m - 2 ^ fbitsOf f)
  if emin ≤ ex && decide (maxMag f < mag) then
    (signed f neg (if sat || towardZero mode neg then maxMag f else infMag f), fOF ||| fNX)
  else if ex < emin then
    let (q, ix) := roundAt mode neg num den e (emin - fbitsOf f)
    (signed f neg q, if ix then fUF ||| fNX else fNone)
  else (signed f neg mag, if inex then fNX else fNone)

/-- Round(v, fmt, mode) of R35 with the sat column of R33: infinities and NaNs included. DESIGN CHOICE (log 76): an
infinity with sat = 1 gives the largest finite value in every format, FP32 from a narrower source included. -/
def roundFV (f : CvtFmt) (mode : RMode) (sat : Bool) (v : FV) : Nat × FlagSet :=
  match v with
  | .nan neg sig =>
    (match f with
      | .e4m3 | .e5m2 => signed f neg (canonNaN f)
      | _ => canonNaN f, if sig then fNV else fNone)
  | .inf neg =>
    (signed f neg (if sat then maxMag f else infMag f), if f == .e4m3 then fOF else fNone)
  | .fin neg 0 _ => (signed f neg 0, fNone)
  | .fin neg m e => roundReal f mode sat neg m 1 e

/-- The exact sum of two values that are neither NaN nor opposite infinities; an exact zero takes the
sign of R99. -/
def addFV (mode : RMode) (a b : FV) : FV :=
  match a, b with
  | .inf n, _ => .inf n
  | _, .inf n => .inf n
  | .fin n1 m1 e1, .fin n2 m2 e2 =>
    let e := min e1 e2
    let i1 : Int := (m1 * 2 ^ (e1 - e).toNat : Nat)
    let i2 : Int := (m2 * 2 ^ (e2 - e).toNat : Nat)
    let t := (if n1 then -i1 else i1) + (if n2 then -i2 else i2)
    if t == 0 then .fin (if n1 == n2 then n1 else mode == .rdn) 0 0
    else .fin (t < 0) t.natAbs e
  | x, _ => x

/-- The exact product of two values that are neither NaN nor zero times infinity. -/
def mulFV (a b : FV) : FV :=
  match a, b with
  | .fin n1 m1 e1, .fin n2 m2 e2 => .fin (n1 != n2) (m1 * m2) (e1 + e2)
  | x, y => .inf (x.neg != y.neg)

/-- Zero times infinity. -/
def mulInvalid (a b : FV) : Bool := (a.isZero && b.isInf) || (a.isInf && b.isZero)

/-- Infinities of opposite sign in a sum. -/
def addInvalid (a b : FV) : Bool := a.isInf && b.isInf && a.neg != b.neg

/-- Whether a bit of a flag set is wanted. -/
def nvIf (b : Bool) : FlagSet := if b then fNV else fNone

/-- R31, R99: A + B rounded once. -/
def fadd (f : CvtFmt) (mode : RMode) (a b : FV) : Nat × FlagSet :=
  if a.isNaN || b.isNaN then (canonNaN f, nvIf (a.isSig || b.isSig))
  else if addInvalid a b then (canonNaN f, fNV)
  else roundFV f mode false (addFV mode a b)

/-- R31, R99: A × B rounded once. -/
def fmul (f : CvtFmt) (mode : RMode) (a b : FV) : Nat × FlagSet :=
  if a.isNaN || b.isNaN then (canonNaN f, nvIf (a.isSig || b.isSig))
  else if mulInvalid a b then (canonNaN f, fNV)
  else roundFV f mode false (mulFV a b)

/-- R31, R99: A × B + D rounded once; 0 × ∞ sets NV even when D is a quiet NaN. -/
def ffma (f : CvtFmt) (mode : RMode) (a b d : FV) : Nat × FlagSet :=
  let bad := !a.isNaN && !b.isNaN && mulInvalid a b
  if a.isNaN || b.isNaN || d.isNaN then (canonNaN f, nvIf (bad || a.isSig || b.isSig || d.isSig))
  else if bad then (canonNaN f, fNV)
  else if addInvalid (mulFV a b) d then (canonNaN f, fNV)
  else roundFV f mode false (addFV mode (mulFV a b) d)

/-- A < B of two values that are no NaN; -0 equals +0. -/
def ltFV (a b : FV) : Bool :=
  match a, b with
  | .inf n, .inf m => n && !m
  | .inf n, _ => n
  | _, .inf m => !m
  | .fin n1 m1 e1, .fin n2 m2 e2 =>
    let e := min e1 e2
    let i1 : Int := (m1 * 2 ^ (e1 - e).toNat : Nat)
    let i2 : Int := (m2 * 2 ^ (e2 - e).toNat : Nat)
    decide ((if n1 then -i1 else i1) < (if n2 then -i2 else i2))
  | _, _ => false

/-- A = B of two values that are no NaN (R103). -/
def eqFV (a b : FV) : Bool := !ltFV a b && !ltFV b a

/-- R100: the larger (or smaller) of two encodings; -0 is below +0, one NaN gives the other operand. -/
def fmaxmin (f : CvtFmt) (isMax : Bool) (x y : Nat) : Nat × FlagSet :=
  let a := value f x
  let b := value f y
  let nv := nvIf (a.isSig || b.isSig)
  if a.isNaN && b.isNaN then (canonNaN f, nv)
  else if a.isNaN then (y, nv)
  else if b.isNaN then (x, nv)
  else
    let less := ltFV a b || (eqFV a b && a.neg && !b.neg)
    ((if less == isMax then y else x), nv)

/-- R33: a value rounded in the mode to an integer and clamped to [lo, hi]; a NaN gives 0. -/
def toInt (mode : RMode) (lo hi : Int) (v : FV) : Int × FlagSet :=
  match v with
  | .nan _ _ => (0, fNV)
  | .inf n => ((if n then lo else hi), fNV)
  | .fin n m e =>
    let (q, ix) := roundAt mode n m 1 e 0
    let i : Int := if n then -(q : Int) else q
    if i < lo then (lo, fNV) else if hi < i then (hi, fNV)
    else (i, if ix then fNX else fNone)

/-- An integer as an exact value. -/
def intFV (i : Int) : FV := .fin (i < 0) i.natAbs 0

/-- The integer an I32 or I8 encoding holds. -/
def intVal (f : CvtFmt) (x : Nat) : Int := sfield (widthOf f) x

/-- Convert(x, from, to, sat) of R33 in a mode, equal formats rounded like any other pair. DESIGN CHOICE (log 76): where
the rows of overflow and infinity overlap those of an integer or a small format to a float, the sat column holds. -/
def convertAll (mode : RMode) (src dst : CvtFmt) (sat : Bool) (x : Nat) : Nat × FlagSet :=
  match src, dst with
  | .i32, .i8 =>
    let i := intVal .i32 x
    let c := if sat then max (-128) (min 127 i) else i
    ((BitVec.ofInt 8 c).toNat, fNone)
  | .i8, .i32 => ((BitVec.ofInt 32 (intVal .i8 x)).toNat, fNone)
  | .i32, _ => roundFV dst mode sat (intFV (intVal .i32 x))
  | .i8, _ => roundFV dst mode sat (intFV (intVal .i8 x))
  | _, .i32 =>
    let (i, fl) := toInt mode (-2147483648) 2147483647 (value src x)
    ((BitVec.ofInt 32 i).toNat, fl)
  | _, .i8 =>
    let (i, fl) := toInt mode (-128) 127 (value src x)
    ((BitVec.ofInt 8 i).toNat, fl)
  | _, _ => roundFV dst mode sat (value src x)

/-- The conversion of vcvt, sfcvt and mdrain: equal formats return the source (R33, R106). -/
def convert (mode : RMode) (src dst : CvtFmt) (sat : Bool) (x : Nat) : Nat × FlagSet :=
  if src == dst then (x, fNone) else convertAll mode src dst sat x

/-- SX10Value of R26. -/
def sx10 (s : Nat) : FV :=
  let e := fld s 15 8
  if e == 0 then .fin false 0 0
  else if e == 255 then .nan false false
  else .fin false (4 + fld s 7 6) ((e : Int) - 129)

/-- BPNPrefix of R25 for the byte b and p planes. -/
def bpnPrefix (b p : Nat) : Int :=
  let full : Int := sfield 8 b
  if p < 8 then full / 2 ^ (8 - p) * 2 ^ (8 - p) + 2 ^ (7 - p) else full

/-- ToXF19 of R28: the operand's value and the block's scale, if scales are used. -/
def toXF19 (a : FV) (scale : Option Nat) : XF19 × FlagSet :=
  let c := match scale with
    | some s => sx10 s
    | none => FV.fin false 1 0
  if a.isNaN || c.isNaN || (a.isInf && c.isZero) then (0x3FE00, fNV)
  else
    match mulFV a c with
    | .inf n => ((if a.isInf then (if a.neg then 0x7FC00 else 0x3FC00) else if n then 0x7FC00 else 0x3FC00), fNone)
    | .nan _ _ => (0x3FE00, fNV)
    | .fin _ 0 _ => ((if a.neg then 0x40000 else 0), fNone)
    | .fin n m e =>
      let (q, k, inex) := roundP .rne n m 1 e 11
      let sgn := if n then 0x40000 else 0
      let nx := if inex then fNX else fNone
      let ex := k + 10
      if 128 ≤ ex then (BitVec.ofNat 19 (sgn + 0x3FC00), nx ||| fOF ||| fNX)
      else if ex < -126 then (BitVec.ofNat 19 sgn, nx ||| fUF ||| fNX)
      else (BitVec.ofNat 19 (sgn + (ex + 127).toNat * 1024 + (q - 1024)), nx)

/-- The value of an XF19 encoding (R27). -/
def valXF19 (x : XF19) : FV :=
  let n := x.toNat
  let e := fld n 17 10
  let f := fld n 9 0
  let neg := n / 262144 == 1
  if e == 0 then .fin neg 0 0
  else if e == 255 then (if f == 0 then .inf neg else .nan neg (f < 512))
  else .fin neg (1024 + f) ((e : Int) - 137)

/-- One addition of R30: an FP32 partial sum plus an exact addend, rounded to nearest even. -/
def arraySum (t : W32) (p : FV) : W32 × FlagSet :=
  let (r, fl) := fadd .fp32 .rne (value .fp32 t.toNat) p
  (BitVec.ofNat 32 r, fl)

/-- The product of two operands as R30 takes it into the sum. -/
def arrayProduct (a w : XF19) : FV × FlagSet :=
  let x := valXF19 a
  let y := valXF19 w
  if x.isNaN || y.isNaN then (.nan false false, nvIf (x.isSig || y.isSig))
  else if mulInvalid x y then (.nan false false, fNV)
  else (mulFV x y, fNone)

/-- The column sum t of R30: the first product rounded, then ascending k with one rounding an addition. -/
def columnSum : List XF19 → List XF19 → W32 × FlagSet
  | a :: as, w :: ws =>
    let (p, f0) := arrayProduct a w
    let (r, f1) := roundFV .fp32 .rne false p
    go as ws (BitVec.ofNat 32 r, f0 ||| f1)
  | _, _ => (0, fNone)
where
  go : List XF19 → List XF19 → W32 × FlagSet → W32 × FlagSet
    | a :: as, w :: ws, (t, fl) =>
      let (p, f0) := arrayProduct a w
      let (t', f1) := arraySum t p
      go as ws (t', fl ||| f0 ||| f1)
    | _, _, acc => acc

/-! ## Lane packing (R34) -/

/-- Element i of a packed vector of w-bit elements. -/
def element (w : Nat) (v : Lanes) (i : Nat) : Nat :=
  let per := 32 / w
  (lane v (i / per)).toNat / 2 ^ (w * (i % per)) % 2 ^ w

/-- A lane from its packed elements, element 0 lowest. -/
def packLane (w : Nat) : List Nat → Nat
  | [] => 0
  | x :: t => x % 2 ^ w + 2 ^ w * packLane w t

/-- n elements of w bits packed into 128 lanes, the other lanes 0. -/
def packLanes (w n : Nat) (f : Nat → Nat) : Lanes :=
  let per := 32 / w
  tab 128 fun i =>
    if i * per < n then BitVec.ofNat 32 (packLane w (tab per fun j => f (i * per + j))) else 0

/-- The OR of flag sets. -/
def orFlags (l : List FlagSet) : FlagSet := l.foldl (· ||| ·) fNone

end Sys2Proof.Machine
end

