-- ==== Sys2Proof/Machine/Memory.lean ====
section
/-! DEFINITION. Machine/Memory.lean: bytes, accessors of cores and contexts, page tables and TLBs, L2, the MSC,
chunks, machine checks and L1 (10_local_memories, 11_package_memory). -/

namespace Sys2Proof.Machine

open Sys2Proof

/-! ## Bytes -/

/-- The byte a list of cells gives an address; an unlisted byte reads 0 (log 2). -/
def cellByte (cs : List Host.Cell) (a : Nat) : Byte :=
  match cs.find? (fun c => c.1 == a) with
  | some c => c.2
  | none => 0

/-- One byte. -/
def Memory.read (m : Memory) (a : Nat) : Byte := cellByte m.cells a

/-- n bytes from a. -/
def Memory.readN (m : Memory) (a n : Nat) : List Byte :=
  let cs := m.cells.filter fun c => decide (a ≤ c.1 ∧ c.1 < a + n)
  tab n fun i => cellByte cs (a + i)

/-- The listed cells of bytes placed from a. -/
def Memory.place : Nat → List Byte → List Host.Cell
  | _, [] => []
  | a, b :: t => if b == 0 then place (a + 1) t else (a, b) :: place (a + 1) t

/-- The bytes written from a, the canonical form kept. -/
def Memory.writeN (m : Memory) (a : Nat) (bs : List Byte) : Memory :=
  ⟨m.cells.filter (fun c => decide (c.1 < a)) ++ Memory.place a bs
    ++ m.cells.filter (fun c => decide (a + bs.length ≤ c.1))⟩

/-- n bytes from a become 0. -/
def Memory.zero (m : Memory) (a n : Nat) : Memory :=
  ⟨m.cells.filter fun c => decide (c.1 < a) || decide (a + n ≤ c.1)⟩

/-- A little-endian number of n bytes (R2). -/
def Memory.num (m : Memory) (a n : Nat) : Nat := ofBytes (m.readN a n)

/-! ## Cores, contexts, clusters, devices -/

def State.core (s : State) (n : Nat) : Core := s.cores.get Core.reset n
def State.setCore (s : State) (n : Nat) (c : Core) : State := { s with cores := s.cores.set n c }
def Core.ctx (c : Core) (j : Nat) : Ctx := c.ctxs.get Ctx.reset j
def Core.setCtx (c : Core) (j : Nat) (x : Ctx) : Core := { c with ctxs := c.ctxs.set j x }
def State.ctx (s : State) (n j : Nat) : Ctx := (s.core n).ctx j
def State.setCtx (s : State) (n j : Nat) (x : Ctx) : State := s.setCore n ((s.core n).setCtx j x)
def State.updCore (s : State) (n : Nat) (f : Core → Core) : State := s.setCore n (f (s.core n))
def State.updCtx (s : State) (n j : Nat) (f : Ctx → Ctx) : State := s.setCtx n j (f (s.ctx n j))

/-- The context whose bundle is issued: the current context of the current core (R342). -/
def State.j (s : State) : Nat := (s.core s.cur).cur
def State.mycore (s : State) : Core := s.core s.cur
def State.me (s : State) : Ctx := s.ctx s.cur s.j
def State.updMe (s : State) (f : Ctx → Ctx) : State := s.updCtx s.cur s.j f
def State.updMyCore (s : State) (f : Core → Core) : State := s.updCore s.cur f

def State.cluster (s : State) (n : Nat) : Cluster := s.clusters.get Cluster.reset n
def State.updCluster (s : State) (n : Nat) (f : Cluster → Cluster) : State :=
  { s with clusters := s.clusters.set n (f (s.cluster n)) }
def State.pier (s : State) (n : Nat) : Pier := s.piers.get Pier.reset n
def State.updPier (s : State) (n : Nat) (f : Pier → Pier) : State :=
  { s with piers := s.piers.set n (f (s.pier n)) }
def State.vdev (s : State) (n : Nat) : VDev := s.vdevs.get VDev.reset n
def State.updVdev (s : State) (n : Nat) (f : VDev → VDev) : State :=
  { s with vdevs := s.vdevs.set n (f (s.vdev n)) }

/-- R18: the virtual device that holds a cluster; the number of no device where none does. -/
def Cluster.vdev (c : Cluster) : Nat := c.device.getD Config.numDevices

/-- R12: the cluster of a core; R18: the virtual device of a core's cluster. -/
def clusterOf (n : Nat) : Nat := n / Config.coresPerCluster
def State.vdevOf (s : State) (n : Nat) : Nat := (s.cluster (clusterOf n)).vdev

/-- R419: what a system core does; nothing in recovery, where none runs (log 96). -/
def State.bySystem (s t : State) : State := if s.recovery then s else t

/-- R12: the context number of context j of core n. -/
def ctxNum (n j : Nat) : Nat := Config.contexts * n + j

/-- R150: bytes of the scratchpad region. -/
def Core.spsz (c : Core) : Nat := (c.b1 - c.b0) * Config.unitBytes

/-- R236: bytes of each operand ring. -/
def Core.half (c : Core) : Nat := (Config.poolUnits - c.b2) * Config.unitBytes / 2

/-- Scratchpad bytes (R150) and their pool bytes (R223). -/
def Core.scr (c : Core) (a n : Nat) : List Byte := c.pool.readN (c.b0 * Config.unitBytes + a) n
def Core.setScr (c : Core) (a : Nat) (bs : List Byte) : Core :=
  { c with pool := c.pool.writeN (c.b0 * Config.unitBytes + a) bs }

/-- Bytes of the A or B ring at a ring offset, wrapping (R236, R237). -/
def Core.ringAt (c : Core) (b : Bool) (off : Nat) : Nat :=
  c.b2 * Config.unitBytes + (if b then c.half else 0) + off % max c.half 1
def Core.ring (c : Core) (b : Bool) (off n : Nat) : List Byte := tab n fun i => c.pool.read (c.ringAt b (off + i))
def Core.setRing (c : Core) (b : Bool) (off : Nat) (bs : List Byte) : Core :=
  let k := min bs.length (c.half - off % max c.half 1)
  { c with pool := (c.pool.writeN (c.ringAt b off) (bs.take k)).writeN (c.ringAt b 0) (bs.drop k) }

/-! ## Physical memory (R248, R252, R256) -/

/-- R248: the home stack of a line. -/
def homeStack (pa : Nat) : Nat :=
  (List.range 11).foldl (fun h i => Nat.xor h (fld (pa % 2 ^ 52) (12 + 4 * i) (9 + 4 * i))) 0

/-- R248: the Pier die of a line's home slice. -/
def homePier (pa : Nat) : Nat := homeStack pa / 4

/-- R252: the tier of a physical address. -/
def tierOf (pa : Nat) : Nat := if pa < Config.lpddrBase then 0 else if pa < Config.cxlBase then 1 else 2

def inList (l : List (Nat × Nat)) (a n : Nat) : Bool := l.any fun e => decide (e.1 ≤ a ∧ a + n ≤ e.1 + e.2)

/-- Ranges (first address, bytes) of a list that an access of n bytes meets. -/
def meets (l : List (Nat × Nat)) (pa n : Nat) : List (Nat × Nat) :=
  l.filter fun e => decide (e.1 < pa + n ∧ pa < e.1 + e.2 ∧ 0 < e.2)

/-- The offset of the first byte of an access that ranges hold; its length where they hold none. -/
def firstMet (l : List (Nat × Nat)) (pa n : Nat) : Nat := (meets l pa n).foldl (fun m e => min m (e.1 - pa)) n

/-- R256: the ranges that no memory holds: extents taken away by force, and the lines whose chunks lay in one. -/
def State.lostRanges (s : State) : List (Nat × Nat) := s.removed ++ s.lost.map fun la => (la * 512, 512)

/-- R256: a byte of the access is held by no memory. -/
def State.gone (s : State) (pa n : Nat) : Bool := !(meets s.lostRanges pa n).isEmpty

/-- R252, R264: the frame lies in the physical range of its tier. -/
def State.inTier (s : State) (tier pa n : Nat) : Bool :=
  if tier == 0 then decide (pa + n ≤ Config.hbmEnd)
  else if tier == 1 then decide (Config.lpddrBase ≤ pa ∧ pa + n ≤ Config.lpddrEnd)
  else decide (Config.cxlBase ≤ pa ∧ pa + n ≤ Config.cxlEnd) && (inList s.extents pa n || inList s.removed pa n)

/-! ## Translation (R263-R265) -/

/-- What an access needs of a page (R264). -/
inductive Acc where
  | r | w | rw | x | any
  deriving DecidableEq, Repr

/-- A translated address. -/
structure Trans where
  pa : Nat
  pte : Nat
  size : Nat
  entry : Nat
  deriving DecidableEq, Repr

/-- R263: per level, the lowest index bit, the index width, and whether its entries may be leaves. -/
def levels : List (Nat × Nat × Bool) := [(39, 13, false), (30, 9, true), (21, 9, true), (16, 5, true)]

/-- A cached translation covering va (R265). -/
def tlbFind (l : List TlbEntry) (v va : Nat) : Option TlbEntry :=
  l.find? fun e => e.vdev == v && decide (e.va ≤ va ∧ va < e.va + e.size)

/-- R264: a leaf that fails translation. -/
def State.leafBad (s : State) (lo : Nat) (e : Nat) : Bool :=
  let tier := fld e 10 9
  let frame := fld e 51 12 * 4096
  frame % 2 ^ lo != 0 || tier == 3 || !s.inTier tier frame (2 ^ lo) || (tier != 0 && !s.tierOpen)

/-- R258, R264: a table entry whose sector is poisoned, in error or lost cannot be read (log 78). -/
def State.entryLost (s : State) (ea : Nat) : Bool :=
  s.gone ea 8 || s.poison.contains (ea / 128) || s.upset.contains (ea / 128)

/-- R263, R264: the walk of one virtual address from a table, with the walkers' cached entries of levels
0 to 2 (R265). -/
def State.walkFrom (s : State) (cache : List TlbEntry) (v va : Nat) : List (Nat × Nat × Bool) → Nat → Option Trans
  | [], _ => none
  | (lo, nb, leafOk) :: rest, base =>
    let ea := base + 8 * (va / 2 ^ lo % 2 ^ nb)
    let known := cache.find? (fun c => c.vdev == v && c.size == 2 ^ lo && c.va == va / 2 ^ lo * 2 ^ lo)
    let e := match known with
      | some c => c.pte.toNat
      | none => s.mem.num ea 8
    if known.isNone && s.entryLost ea then none
    else if e % 2 == 0 || fld e 63 52 != 0 || fld e 6 6 != 0 then none
    else if fld e 1 1 == 1 then
      if !leafOk || s.leafBad lo e then none
      else some ⟨fld e 51 12 * 4096 + va % 2 ^ lo, e, 2 ^ lo, ea⟩
    else s.walkFrom cache v va rest (fld e 51 12 * 4096)

/-- The entries of every walker's cache (R265). -/
def State.walkCache (s : State) : List TlbEntry := s.piers.flatMap fun p => p.2.wcache

/-- R251, R263: the walk of a virtual address of a virtual device. -/
def State.walk (s : State) (v va : Nat) : Option Trans :=
  let pb := (s.vdev v).ptbase
  if 2 ^ 52 ≤ va || !bit pb 0 then none
  else s.walkFrom s.walkCache v va levels (bits pb 51 16 * 65536)

/-- R264: a permission the page lacks. -/
def denied (pte : Nat) (a : Acc) (user : Bool) : Bool :=
  (match a with
    | .r => fld pte 2 2 == 0
    | .w => fld pte 3 3 == 0
    | .rw => fld pte 2 2 == 0 || fld pte 3 3 == 0
    | .x => fld pte 4 4 == 0
    | .any => false) || (user && a != .any && fld pte 5 5 == 0)

/-- The translation of va, from the given TLBs or by a walk (R265). -/
def State.lookup (s : State) (tlbs : List TlbEntry) (v va : Nat) : Option Trans :=
  if 2 ^ 52 ≤ va || !bit (s.vdev v).ptbase 0 then none
  else match tlbFind tlbs v va with
    | some e => some ⟨fld e.pte.toNat 51 12 * 4096 + (va - e.va), e.pte.toNat, e.size, 0⟩
    | none => s.walk v va

/-- Translation and permission: cause 1 or 2 of R379. -/
def State.translate (s : State) (tlbs : List TlbEntry) (v va : Nat) (a : Acc) (user : Bool) :
    Except Nat Trans :=
  match s.lookup tlbs v va with
  | none => .error 1
  | some t => if denied t.pte a user then .error 2 else .ok t

/-- The TLBs a core's accesses consult, micro-TLB first (R265). -/
def State.tlbs (s : State) (n : Nat) : List TlbEntry := (s.core n).utlb ++ (s.cluster (clusterOf n)).ctlb

/-! ## Engine access at homes -/

/-- A sector of the access is poisoned (R258). -/
def State.poisoned (s : State) (pa n : Nat) : Bool :=
  s.poison.any fun x => decide (x * 128 < pa + n ∧ pa < x * 128 + 128)

/-- A sector of the access holds an uncorrectable error not yet found (R258). -/
def State.upsets (s : State) (pa n : Nat) : Bool :=
  s.upset.any fun x => decide (x * 128 < pa + n ∧ pa < x * 128 + 128)

/-- The offset of the first byte of a read that is refused; its length where none is. -/
def State.firstBad (s : State) (pa n : Nat) : Nat :=
  firstMet (s.lostRanges ++ (s.poison ++ s.upset).map fun x => (x * 128, 128)) pa n

/-- What a read at the home meets: 0, or for the first byte refused cause 3, 4 or 6 of R379. -/
def State.readCause (s : State) (pa n : Nat) : Nat :=
  let b := s.firstBad pa n
  if b == n then 0 else if s.gone (pa + b) 1 then 3 else if s.poisoned (pa + b) 1 then 6 else 4

/-! ## Walks that wait (R268) -/

/-- R268: an access of n bytes whose walk meets a page that migrates: it waits. -/
def State.moving (s : State) (tlbs : List TlbEntry) (v va n : Nat) : Bool :=
  !s.migrations.isEmpty && (List.range ((va + max n 1 + 65535) / 65536 - va / 65536)).any fun i =>
    (s.lookup tlbs v (if i == 0 then va else (va / 65536 + i) * 65536)).any fun t => fld t.pte 11 11 == 1

/-- R268: an access of a list (address, bytes) of an agent without a TLB waits in its walk. -/
def State.anyMoving (s : State) (v : Nat) (l : List (Nat × Nat)) : Bool :=
  !s.migrations.isEmpty && l.any fun x => s.moving [] v x.1 x.2

/-- R268: a write of hardware for a virtual device, which reaches the given ranges, waits in its walk, or behind one of the
same device that waits (log 77). -/
def State.hwWaits (s : State) (v : Nat) (l : List (Nat × Nat)) : Bool := s.hwq.any (·.vdev == v) || s.anyMoving v l

/-- Such a write joins those that wait. -/
def State.hwPush (s : State) (v : Nat) (o : HwOp) : State := { s with hwq := s.hwq ++ [⟨v, o⟩] }

/-- R275: bytes that hardware writes at their home, where the bits of the slots that they touch go. -/
def State.hwWrite (s : State) (pa : Nat) (bs : List Byte) : State :=
  { s with
    mem := s.mem.writeN pa bs,
    slotBits := s.slotBits.filter fun b => !decide (b.pa < pa + bs.length ∧ pa < b.pa + 64) }

/-! ## Machine checks (R258, R259, R288) -/

/-- The header of a virtual device's machine-check queue, and its next slot. -/
def State.mcqRanges (s : State) (v : Nat) : List (Nat × Nat) :=
  let h := bits (s.vdev v).mcqbase 51 6 * 64
  (h, 64) :: (match s.lookup [] v h with
    | none => []
    | some t => [(s.mem.num (t.pa + 16) 8 + 32 * (s.mem.num t.pa 8 % 2 ^ s.mem.num (t.pa + 24) 1), 32)])

/-- R259, R288: a machine-check record appended to a virtual device's queue; one that finds the queue full or not enabled
is counted in LOST. One whose header or slot does not translate is dropped, and a header is used as it stands (log 98). -/
def State.mcheckNow (s : State) (v pa kind ctx sect time : Nat) : State :=
  let d := s.vdev v
  let at_ := fun (a : Nat) => (s.lookup [] v a).map (·.pa)
  match at_ (bits d.mcqbase 51 6 * 64) with
    | none => s
    | some h =>
      let wi := s.mem.num h 8
      let ri := s.mem.num (h + 8) 8
      let size := 2 ^ s.mem.num (h + 24) 1
      if !bit d.mcqbase 63 || decide (size ≤ wi - ri) then
        s.hwWrite (h + 32) (toBytes 8 (s.mem.num (h + 32) 8 + 1))
      else match at_ (s.mem.num (h + 16) 8 + 32 * (wi % size)) with
      | none => s
      | some slot =>
        let rec_ := toBytes 8 pa ++ toBytes 1 kind ++ toBytes 1 (tierOf pa) ++ toBytes 2 ctx ++ toBytes 1 v
          ++ toBytes 1 sect ++ toBytes 2 0 ++ toBytes 8 time ++ toBytes 8 0
        ((s.updVdev v fun d => { d with mcheckIrq := true }).hwWrite h (toBytes 8 (wi + 1))).hwWrite slot rec_

/-- R259, R268, R288: a machine check, once its record can be written. -/
def State.machineCheck (s : State) (v pa kind ctx sect : Nat) : State :=
  if s.hwWaits v (s.mcqRanges v) then s.hwPush v (.mcheck pa kind ctx sect s.time)
  else s.mcheckNow v pa kind ctx sect s.time

/-- The owner field of a line as a machine-check record names it (R257, R259). -/
def ownerCtx (o : Nat) : Nat := if o == 0xFFF then 0xFFFF else o

/-- The sectors of a line found in a list, as bits. -/
def sectorsIn (l : List Nat) (la : Nat) : Nat :=
  ((List.range 4).map fun i => if l.contains (la * 4 + i) then 2 ^ i else 0).sum

/-- R253: the chunks a line needs. -/
def chunksOf (bs : List Byte) : Nat :=
  if bs.all (· == 0) then 1 else max 1 (min 4 (Config.compressedChunks bs))

/-- R252, R426: the first k chunks of a list that lie in the memory of a tier: memory behind a CXL port holds only TIER 2
frames. -/
def tierChunks (tier k : Nat) (free : List Nat) : List Nat := (free.filter fun a => tierOf a == tier).take k

/-- R253-R255: a line written to its tier takes chunks of that tier's memory from its die's list, the first there, or returns
its last ones to the front (log 8). -/
def State.tierWrite (s : State) (la : Nat) : State :=
  let pa := la * 512
  if tierOf pa == 0 then s
  else
    let p := homePier pa
    let have_ := s.chunkOf.get [] la
    let need := chunksOf (s.mem.readN pa 512)
    let free := (s.pier p).free
    if have_.length < need then
      let k := need - have_.length
      let got := tierChunks (tierOf pa) k free
      let rest := free.filter fun a => !got.contains a
      let low := decide (rest.length ≤ (s.pier p).chunkRsv)
      let s := s.updPier p fun d => { d with free := rest, chunkIrq := d.chunkIrq || low }
      { s with chunkOf := s.chunkOf.set la (have_ ++ got) }
    else
      let s := s.updPier p fun d => { d with free := have_.drop need ++ free }
      { s with chunkOf := s.chunkOf.set la (have_.take need) }

/-- R258: a dirty line leaves L2 or the MSC: errors in it are poisoned and charged to its owner. -/
def State.spoil (s : State) (l : Line) : State :=
  let bad := sectorsIn s.upset l.pa
  if l.dirty == 0 || bad == 0 then s
  else
    let here := s.upset.filter fun x => x / 4 == l.pa
    let s := { s with upset := s.upset.filter (fun x => x / 4 != l.pa), poison := here ++ s.poison }
    s.machineCheck l.ownVdev (l.pa * 512) 1 (ownerCtx l.ownCtx) bad

/-- A line's dirty sectors go to its tier (R249, R250). -/
def State.toTier (s : State) (l : Line) : State :=
  if l.dirty == 0 then s else (s.spoil l).tierWrite l.pa

/-- R14, R249: the L2 set of a line: one of the 8,192 sets of the slice of its home Pier die. -/
def l2SetOf (la : Nat) : Nat := homePier (la * 512) * Config.l2Sets + Config.l2Set la % Config.l2Sets

/-- R14, R250: the MSC set of a line: one of the 16,384 sets of the slice beside its L2 slice. -/
def mscSetOf (la : Nat) : Nat := homePier (la * 512) * Config.mscSets + Config.mscSet la % Config.mscSets

/-- R250: an L2 victim is placed in the MSC by the ways and the policy of its virtual device. -/
def State.mscPlace (s : State) (l : Line) : State :=
  let d := s.vdev l.vdev
  let mask := d.mscway.get 0xFFFF l.tc
  let pol := match l.last with
    | .read => d.mscpol % 4 | .write => d.mscpol / 4 % 4 | .atomic => d.mscpol / 16 % 4
  if mask == 0 || 2 ≤ pol then s.toTier l
  else
    let s := s.spoil l
    let same := if s.msc.length == 0 then [] else s.msc.filter fun x => mscSetOf x.pa == mscSetOf l.pa
    let ways := (List.range 16).filter fun w => mask / 2 ^ w % 2 == 1
    match ways.find? (fun w => same.all fun x => x.way != w) with
    | some w => { s with msc := if pol == 1 then s.msc ++ [{ l with way := w }] else { l with way := w } :: s.msc }
    | none =>
      match (same.filter fun x => ways.contains x.way).getLast? with
      | none => s.toTier l
      | some old =>
        let s := s.toTier old
        let rest := s.msc.filter fun x => x.pa != old.pa
        { s with msc := if pol == 1 then rest ++ [{ l with way := old.way }] else { l with way := old.way } :: rest }

/-- A line enters L2 as the most recently used, the victim of its set going to the MSC (R249). -/
def State.l2Insert (s : State) (l : Line) : State :=
  let same := if s.l2.length < 16 then [] else s.l2.filter fun x => l2SetOf x.pa == l2SetOf l.pa
  if same.length < 16 then { s with l2 := l :: s.l2 }
  else match same.getLast? with
    | none => s
    | some old => ({ s with l2 := l :: s.l2.filter fun x => x.pa != old.pa }).mscPlace old

/-- The hint entries that are armed, those too whose arming waits for a migrating page (R268, R287). -/
def State.armed (s : State) : List Hint :=
  s.hints ++ s.hwq.filterMap fun w => match w.op with
    | .arm h => some h
    | _ => none

/-- R267, R287: an access of a virtual device to a second-tier page is counted; a page of an armed hint entry
counts a miss. -/
def State.countPage (s : State) (pa v : Nat) : State :=
  if tierOf pa == 0 then s
  else
    let f := pa / 65536
    let s := { s with access := s.access.set f (min 65535 (s.access.get 0 f + 1)) }
    let hit := s.armed.any fun h => h.vdev == v && (List.range h.pages).any fun i =>
      (s.walk v (h.base + 65536 * i)).any fun t => t.pa / 65536 == f
    if hit then s.updVdev v fun d => { d with pfmiss := d.pfmiss + 1 } else s

/-- An access to a sector at its home slice (R249, R257): its line is in L2 afterwards, its owner the writer. A quiet one is
part of a request that is counted by itself (R262). -/
def State.l2Touch (s : State) (pa v tc : Nat) (acc : Access) (own : Option (Nat × Nat)) (quiet : Bool := false) : State :=
  let s := match quiet with
    | true => s
    | false => s.countPage pa v
  let la := pa / 512
  let sec := 2 ^ (pa / 128 % 4)
  let upd := fun (l : Line) =>
    let l := { l with valid := l.valid ||| sec, last := acc, vdev := v, tc := tc }
    match own with
    | some o => { l with dirty := l.dirty ||| sec, ownVdev := o.1, ownCtx := o.2 }
    | none => l
  match s.l2.find? (fun x => x.pa == la) with
  | some l => { s with l2 := upd l :: s.l2.filter fun x => x.pa != la }
  | none =>
    match s.msc.find? (fun x => x.pa == la) with
    | some l => ({ s with msc := s.msc.filter fun x => x.pa != la }).l2Insert (upd l)
    | none => s.l2Insert (upd ⟨la, 0, 0, v, 0xFFF, v, tc, acc, 0⟩)

/-- Every sector of an access is touched. -/
def State.l2TouchAll (s : State) (pa n v tc : Nat) (acc : Access) (own : Option (Nat × Nat)) (quiet : Bool := false) : State :=
  (List.range ((pa + n + 127) / 128 - pa / 128)).foldl
    (fun s i => s.l2Touch ((pa / 128 + i) * 128) v tc acc own quiet) s

/-- The sectors of a write that it covers whole (R258). -/
def coveredSectors (pa n : Nat) : List Nat :=
  (List.range ((n + 127) / 128 + 1)).filterMap fun i =>
    let x := pa / 128 + i
    if decide (pa ≤ x * 128 ∧ x * 128 + 128 ≤ pa + n) then some x else none

/-- Bytes written at their home (R249, R257, R258); slot bits of the written bytes are cleared (R275). -/
def State.homeWrite (s : State) (pa : Nat) (bs : List Byte) (v tc : Nat) (acc : Access) (own : Nat) (quiet : Bool := false) :
    State :=
  if s.gone pa bs.length then s
  else
    let cov := coveredSectors pa bs.length
    let s := { s with
      mem := s.mem.writeN pa bs,
      poison := s.poison.filter (fun x => !cov.contains x),
      upset := s.upset.filter (fun x => !cov.contains x),
      slotBits := s.slotBits.filter fun b => !decide (b.pa < pa + bs.length ∧ pa < b.pa + 64) }
    s.l2TouchAll pa bs.length v tc acc (some (v, own)) quiet

/-- R257: the owner of a line; one held nowhere has no writer. -/
def State.lineOwner (s : State) (la v : Nat) : Nat × Nat :=
  match (s.l2 ++ s.msc).find? fun x => x.pa == la with
  | some l => (l.ownVdev, l.ownCtx)
  | none => (v, 0xFFF)

/-- R258: an error found by a read is charged to the owner of each line it lies in. -/
def State.chargeRead (s : State) (pa n v : Nat) : State :=
  let hit := s.upset.filter fun x => decide (x * 128 < pa + n ∧ pa < x * 128 + 128)
  ((hit.map (· / 4)).eraseDups).foldl (fun s la =>
    let o := s.lineOwner la v
    s.machineCheck o.1 (la * 512) 2 (ownerCtx o.2) (sectorsIn hit la)) s

/-- A read at the home: bytes, or the cause that refuses them. -/
def State.homeRead (s : State) (pa n v tc : Nat) (quiet : Bool := false) : State × Except Nat (List Byte) :=
  match s.readCause pa n with
  | 0 => (s.l2TouchAll pa n v tc .read none quiet, .ok (s.mem.readN pa n))
  | 4 => (s.chargeRead pa n v, .error 4)
  | c => (s, .error c)

/-- An atomic of w bytes at the home, one access that reads and writes (R159, R323): the old value, or the cause that refuses
it. -/
def State.atomicHome (s : State) (pa w v tc own : Nat) (f : Nat → Nat) : State × Except Nat Nat :=
  match s.readCause pa w with
  | 0 => (s.homeWrite pa (toBytes w (f (s.mem.num pa w))) v tc .atomic own, .ok (s.mem.num pa w))
  | 4 => (s.chargeRead pa w v, .error 4)
  | c => (s, .error c)

/-! ## Walks and the caches of translations (R264, R265) -/

/-- The entries that a walk reads from the tables, with their addresses, the leaf among them. -/
def State.walkEntries (s : State) (v va : Nat) : List (Nat × Nat × Bool) → Nat → List (Nat × TlbEntry)
  | [], _ => []
  | (lo, nb, _) :: rest, base =>
    let ea := base + 8 * (va / 2 ^ lo % 2 ^ nb)
    let e := s.mem.num ea 8
    let here : Nat × TlbEntry := (ea, ⟨v, va / 2 ^ lo * 2 ^ lo, 2 ^ lo, BitVec.ofNat 64 e⟩)
    if s.entryLost ea || e % 2 == 0 || fld e 1 1 == 1 then [here]
    else here :: s.walkEntries v va rest (fld e 51 12 * 4096)

/-- R264, R265: a walk reads through L2 the entries that no walker has cached; the walker of the Pier die that holds the
level-0 entry keeps up to 256 valid entries of levels 0 to 2. -/
def State.fillWalker (s : State) (v va : Nat) : State :=
  let pb := (s.vdev v).ptbase
  if !bit pb 0 then s
  else
    let base := bits pb 51 16 * 65536
    let known := s.walkCache
    let new := (s.walkEntries v va levels base).filter fun e =>
      !known.any fun k => k.vdev == v && k.va == e.2.va && k.size == e.2.size
    let keep := new.filter fun e => e.2.size != 65536 && bit e.2.pte 0 && !s.entryLost e.1
    let s := new.foldl (fun s e => (s.homeRead e.1 8 v 0).1) s
    s.updPier (homePier (base + 8 * (va / 2 ^ 39 % 2 ^ 13))) fun d => { d with wcache := (keep.map (·.2) ++ d.wcache).take 256 }

/-- A walk made for an access that finds its translation in none of the given TLBs. -/
def State.walked (s : State) (tlbs : List TlbEntry) (v va : Nat) : State :=
  if 2 ^ 52 ≤ va || (tlbFind tlbs v va).isSome then s else s.fillWalker v va

/-- R265: the set of the cluster TLB that an entry may take. -/
def tlbSetOf (e : TlbEntry) : Nat := Config.tlbSet e.vdev (e.va / e.size) e.size % Config.tlbSets

/-- R265: an entry enters the cluster TLB, the oldest of its set of 8 leaving. -/
def tlbInsert (e : TlbEntry) (l : List TlbEntry) : List TlbEntry :=
  match (l.filter fun x => tlbSetOf x == tlbSetOf e)[Config.tlbWays - 1]? with
  | none => e :: l
  | some old => e :: l.erase old

/-- R265: a completed walk fills the micro-TLB and the cluster TLB, the oldest entries leaving (log 13); a
migrating page is not cached (R268). -/
def State.fillTlb (s : State) (n va : Nat) : State :=
  let v := s.vdevOf n
  match tlbFind (s.core n).utlb v va, s.lookup (s.tlbs n) v va with
  | none, some t =>
    if fld t.pte 11 11 == 1 then s else
    let e : TlbEntry := ⟨v, va / t.size * t.size, t.size, BitVec.ofNat 64 t.pte⟩
    let known := (tlbFind (s.cluster (clusterOf n)).ctlb v va).isSome
    let s := if known then s else s.fillWalker v va
    let s := s.updCore n fun c => { c with utlb := (e :: c.utlb).take 64 }
    if known then s else s.updCluster (clusterOf n) fun c => { c with ctlb := tlbInsert e c.ctlb }
  | none, none => s.walked (s.tlbs n) v va
  | _, _ => s

/-! ## L1 (R232-R235) -/

/-- The L1 ways a line of physical address pa may take: units of the L1 region that are not draining
(R229, R232). -/
def Core.ways (c : Core) : List Nat :=
  let lo := match c.setpool with
    | some p => max c.b1 p.b1
    | none => c.b1
  let hi := match c.setpool with
    | some p => min c.b2 p.b2
    | none => c.b2
  (List.range (hi - lo)).map (lo + ·)

/-- The line of pa, unless its way drains (R229). -/
def Core.l1Line (c : Core) (pa : Nat) : Option L1Line :=
  c.l1.find? fun l => l.pa == pa / 512 && c.ways.contains l.unit

/-- The context that last wrote a sector of a line (R257). -/
def L1Line.writer (l : L1Line) (k : Nat) : Nat := ((l.writers.find? fun w => w.1 == k).map (·.2)).getD 0

/-- A byte of sector x, counted over all lines, is held. -/
def Core.holdsSector (c : Core) (x : Nat) : Bool := c.l1.any fun l => l.pa == x / 4 && l.bytes.any fun b => b.1 / 128 == x % 4

/-- Lines with no valid byte are invalid ways (R233), and an error goes with the last byte of its sector (R235). -/
def Core.dropEmpty (c : Core) : Core :=
  { c with l1 := c.l1.filter (fun l => !l.bytes.isEmpty), l1upset := c.l1upset.filter c.holdsSector }

/-- R235: an uncorrectable error is found in sectors of a line held by core n: a clean sector is invalidated; in a dirty
one the unwritten bytes are, its written bytes are poisoned and its writer is charged (log 79). -/
def State.l1Found (s : State) (n : Nat) (l : L1Line) (sectors : List Nat) : State :=
  let bad := sectors.filter fun k => (s.core n).l1upset.contains (l.pa * 4 + k)
  if bad.isEmpty then s
  else
    let here := fun (b : Nat × L1Byte) => bad.contains (b.1 / 128)
    let dirty := bad.filter fun k => l.bytes.any fun b => b.1 / 128 == k && b.2.written
    let l' := { l with bytes := (l.bytes.filter fun b => !here b || b.2.written).map fun b =>
      (b.1, { b.2 with poison := b.2.poison || here b }) }
    let s := s.updCore n fun c => Core.dropEmpty { c with
      l1upset := c.l1upset.filter fun x => !bad.contains (x % 4) || x / 4 != l.pa,
      l1 := c.l1.map fun x => if x.pa == l.pa && x.unit == l.unit then l' else x }
    dirty.foldl (fun s k => s.machineCheck (s.vdevOf n) (l.pa * 512) 1 (l.writer k) (2 ^ k)) s

/-- The line as core n now holds it. -/
def State.l1Now (s : State) (n : Nat) (l : L1Line) : L1Line :=
  ((s.core n).l1.find? fun x => x.pa == l.pa && x.unit == l.unit).getD l

/-- The written bytes of a line, free of undetected errors, go to the home (R234, R257, R266): byte by byte, the
whole-sector poison rules of R258 judged on the runs written. An error in the rest of a sector is found as the line is
written back: the sector is poisoned and its owner charged. -/
def State.writeBytes (s : State) (n : Nat) (l : L1Line) (sectors : List Nat) : State :=
  let w := l.bytes.filter fun b => b.2.written && sectors.contains (b.1 / 128)
  if w.isEmpty || s.gone (l.pa * 512) 512 then s
  else
    let v := s.vdevOf n
    let base := l.pa * 512
    let s := w.foldl (fun s b => { s with
      mem := s.mem.writeN (base + b.1) [b.2.val],
      slotBits := s.slotBits.filter fun x => !decide (x.pa ≤ base + b.1 ∧ base + b.1 < x.pa + 64) }) s
    let secs := sectors.filter fun k => w.any fun b => b.1 / 128 == k
    let full := secs.filter fun k => (w.filter fun b => b.1 / 128 == k && !b.2.poison).length == 128
    let bad := secs.filter fun k => w.any fun b => b.1 / 128 == k && b.2.poison
    let s := { s with
      poison := bad.map (l.pa * 4 + ·) ++ s.poison.filter (fun x => !(full.map (l.pa * 4 + ·)).contains x
        && !(bad.map (l.pa * 4 + ·)).contains x),
      upset := s.upset.filter fun x => !(full.map (l.pa * 4 + ·)).contains x }
    let hit := s.upset.filter fun x => (secs.map (l.pa * 4 + ·)).contains x
    let s := if hit.isEmpty then s
      else
        let o := s.lineOwner l.pa v
        { s with upset := s.upset.filter (fun x => !hit.contains x), poison := hit ++ s.poison }.machineCheck o.1 base 1
          (ownerCtx o.2) (sectorsIn hit l.pa)
    (l.writers.filter fun k => secs.contains k.1).foldl (fun s k =>
      s.l2Touch (base + 128 * k.1) v l.tc .write (some (v, k.2))) s

/-- The written bytes of a line's sectors are written back, errors in them found first (R234, R235). -/
def State.writeBack (s : State) (n : Nat) (l : L1Line) (sectors : List Nat) : State :=
  let t := s.l1Found n l sectors
  t.writeBytes n (t.l1Now n l) sectors

/-- A line whose written bytes of the sectors have been written back: they stay, clean (R244). -/
def L1Line.clean (l : L1Line) (sectors : List Nat) : L1Line :=
  { l with bytes := l.bytes.map fun b =>
      if sectors.contains (b.1 / 128) then (b.1, { b.2 with written := false }) else b }

def allSectors : List Nat := [0, 1, 2, 3]

/-- The lines a predicate picks are written back and kept clean (R244). -/
def State.l1WriteBack (s : State) (n : Nat) (p : L1Line → Bool) : State :=
  let s := ((s.core n).l1.filter p).foldl (fun s l => s.writeBack n l allSectors) s
  s.updCore n fun c => { c with l1 := c.l1.map fun l => if p l then l.clean allSectors else l }

/-- R234: an acquire invalidates every byte of L1 outside the written masks. -/
def State.l1Acquire (s : State) (n : Nat) : State :=
  s.updCore n fun c => Core.dropEmpty { c with l1 := c.l1.map fun l =>
    { l with bytes := l.bytes.filter fun b => b.2.written } }

/-- R233: the line of pa made present and most recently used, in an invalid way where there is one, else a victim is written
back. -/
def State.l1Alloc (s : State) (n pa tc : Nat) : State :=
  let s := s.updCore n Core.dropEmpty
  let c := s.core n
  match c.l1Line pa with
  | some l => s.updCore n fun c => { c with l1 := l :: c.l1.filter fun x => !(x.pa == l.pa && x.unit == l.unit) }
  | none =>
    let set := c.l1.filter fun l => l.pa % 16 == pa / 512 % 16 && c.ways.contains l.unit
    match c.ways.find? (fun w => set.all fun l => l.unit != w) with
    | some w => s.updCore n fun c => { c with l1 := ⟨pa / 512, w, [], tc, []⟩ :: c.l1 }
    | none =>
      match set.getLast? with
      | none => s
      | some old =>
        (s.writeBack n old allSectors).updCore n fun c => { c with
          l1 := ⟨pa / 512, old.unit, [], tc, []⟩ :: c.l1.filter fun x => !(x.pa == old.pa && x.unit == old.unit) }

/-- The line of pa changed. -/
def State.l1Upd (s : State) (n pa : Nat) (f : L1Line → L1Line) : State :=
  s.updCore n fun c => { c with l1 := c.l1.map fun l => if l.pa == pa / 512 && c.ways.contains l.unit then f l else l }

/-- The bytes of an access that L1 holds. -/
def L1Line.get (l : L1Line) (pa n : Nat) : List (Option L1Byte) :=
  tab n fun i => (l.bytes.find? fun b => b.1 == pa % 512 + i).map (·.2)

/-- R233: the absent bytes of a sector are filled from the home. -/
def State.l1Fill (s : State) (n pa tc : Nat) : State :=
  let sec := pa / 128 * 128
  let bs := s.mem.readN sec 128
  (s.l1Alloc n pa tc).l1Upd n pa fun l =>
    { l with bytes := (List.range 128).foldl (fun b i =>
        let k := sec % 512 + i
        if b.any (·.1 == k) then b else Tbl.set k ⟨nth 0 bs i, false, false⟩ b) l.bytes }

/-- R235: errors in the sector of an access to a line of L1 are found. -/
def State.l1Check (s : State) (n pa : Nat) : State :=
  match (s.core n).l1Line pa with
  | some l => s.l1Found n l [pa / 128 % 4]
  | none => s

/-- A load through L1 (R233, R235): its bytes, or its cause and the first byte refused. -/
def State.l1Read (s : State) (n pa size v tc : Nat) : State × Except (Nat × Nat) (List Byte) :=
  let pick := fun (s : State) => match (s.core n).l1Line pa with
    | some l => l.get pa size
    | none => []
  let answer := fun (s : State) (bs : List (Option L1Byte)) =>
    match bs.findIdx? (fun b => match b with | some b => b.poison | none => false) with
    | some i => (s, Except.error (6, i))
    | none => (s.l1Alloc n pa tc, .ok (bs.map fun b => match b with | some b => b.val | none => 0))
  let s := s.l1Check n pa
  let have_ := pick s
  if !have_.isEmpty && have_.all (·.isSome) then answer s have_
  else
    let r := s.homeRead (pa / 128 * 128) 128 v tc
    match r.2 with
    | .error c => (r.1, .error (c, 0))
    | .ok _ =>
      if (s.core n).ways.isEmpty then (r.1, .ok (r.1.mem.readN pa size))
      else
        let s := r.1.l1Fill n pa tc
        answer s (pick s)

/-- A store through L1 (R233, R235). -/
def State.l1Write (s : State) (n j pa : Nat) (bs : List Byte) (v tc : Nat) : State :=
  if (s.core n).ways.isEmpty then s.homeWrite pa bs v tc .write (ctxNum n j)
  else (s.l1Alloc n pa tc).l1Upd n pa fun l =>
    { l with
      writers := l.writers.filter (fun w => w.1 != pa / 128 % 4) ++ [(pa / 128 % 4, ctxNum n j)]
      bytes := (List.range bs.length).foldl (fun b i =>
        Tbl.set (pa % 512 + i) ⟨nth 0 bs i, true, false⟩ b) l.bytes }

/-- The written bytes of one sector go home and the sector leaves L1 (R234: atomics). -/
def State.l1Flush (s : State) (n pa : Nat) : State :=
  match (s.core n).l1Line pa with
  | none => s
  | some l =>
    ((s.writeBack n l [pa / 128 % 4]).l1Upd n pa fun l =>
      { l with bytes := l.bytes.filter fun b => b.1 / 128 != pa / 128 % 4 }).updCore n Core.dropEmpty

end Sys2Proof.Machine
end

