-- ==== Sys2Proof/Machine/Flags.lean ====
section
/-! DEFINITION. Machine/Flags.lean: the sticky flags a landing sets and the counters an event adds to (R32, R321). -/

namespace Sys2Proof.Machine

open Sys2Proof

/-- R32: the flags of a landing go to MSTAT or VSTAT. -/
def Ctx.setFlags (x : Ctx) (toM : Bool) (fl : FlagSet) : Ctx :=
  if toM then { x with mstat := x.mstat ||| fl } else { x with vstat := x.vstat ||| fl }

/-- R321: a per-context counter counts k more events. -/
def Ctx.count (x : Ctx) (n k : Nat) : Ctx :=
  { x with counters := x.counters.set n (x.counters.get 0 n + BitVec.ofNat 64 k) }

/-- R321: a per-core counter counts k more events. -/
def Core.count (c : Core) (n k : Nat) : Core :=
  { c with counters := c.counters.set n (c.counters.get 0 n + BitVec.ofNat 64 k) }

/-- R322: the counter of a stall cause. -/
def Stall.counter : Stall → Nat
  | .wfe => 0x108 | .mem => 0x107 | .unit => 0x106 | .ring => 0x104 | .scale => 0x105 | .dec => 0x103 | .fe => 0x102

/-- R382: a deadline the core's KCYC has reached makes the timer interrupt pending. -/
def State.timerDue (s : State) (n j : Nat) : Bool :=
  let t := (s.cluster (clusterOf n)).timers.get 0 (4 * (n % 8) + j)
  bit t 63 && decide (t.toNat % 2 ^ 63 ≤ ((s.core n).counters.get 0 0x120).toNat)

/-- The deadline is reached once k more cycles have passed. -/
def State.timerWithin (s : State) (n j k : Nat) : Bool := (s.updCore n fun c => c.count 0x120 k).timerDue n j

/-- R96, R382: the timer interrupt of context j becomes pending and EN clears. -/
def State.timerPend (s : State) (n j : Nat) : State :=
  let k := 4 * (n % 8) + j
  let s := s.updCluster (clusterOf n) fun c =>
    { c with timers := c.timers.set k (c.timers.get 0 k &&& 0x7FFFFFFFFFFFFFFF) }
  s.updCtx n j fun x => { x with timer := true, ev := true }

/-- R202: a port-unit operation of the context runs. -/
def Core.unitBusy (c : Core) (j : Nat) : Bool := c.unitOps.any fun u =>
  match u.2 with
  | some o => o.ctx == j
  | none => false

/-- R322: the stall a cycle of context j counts in: what its bundle waits for, or what its boundary does, a killed item's among
them (R341). -/
def Core.stallOf (c : Core) (j : Nat) : Option Stall :=
  let x := c.ctx j
  if x.stall.isSome then x.stall
  else if x.waiting then some .wfe
  else if x.killed || x.pend != .none then some (if c.unitBusy j then .unit else .mem)
  else none

/-- k cycles of a core pass (R321, R322): KCYC, the core's clock and the package's time stamp, CRUN of every context
holding a record, the stall counters of those contexts for which the cycles count as stalls, and the timers that come due. -/
def State.pass (s : State) (n k : Nat) (stalls : Nat → Bool) : State :=
  let s := s.updCore n fun c => { c.count 0x120 k with clock := c.clock + k }
  let s := { s with time := max s.time (s.core n).clock }
  (List.range Config.contexts).foldl (fun s j =>
    let x := s.ctx n j
    let s := if x.held.isSome then
        s.setCtx n j (match (if stalls j then (s.core n).stallOf j else none) with
          | some c => (x.count 0x101 k).count c.counter k
          | none => x.count 0x101 k)
      else s
    if s.timerDue n j then s.timerPend n j else s) s

/-- k cycles of a core that are no switch and no issue. -/
def State.cycles (s : State) (n k : Nat) : State := s.pass n k fun _ => true

/-- k cycles in which the bundle of context j issues, no stall of its own (R322). -/
def State.issueCycles (s : State) (n j k : Nat) : State := s.pass n k (· != j)

/-- k cycles in which a core issues nothing (R321). -/
def State.idle (s : State) (n k : Nat) : State := (s.cycles n k).updCore n fun c => c.count 0x121 k

/-- k cycles in which context j waits for an array save or reload (R92, R321). -/
def State.memCycles (s : State) (n j k : Nat) : State :=
  let s := (s.updCtx n j fun x => { x with stall := some .mem }).idle n k
  s.updCtx n j fun x => { x with stall := none }

/-- The array frequency of a Span die in kHz (R428; log 5). -/
def State.freq (s : State) (span : Nat) : Nat := s.arrayFreq.get 1000000 span

/-- R19, R428: the cycles that a bundle with a beat occupies: 1 GHz over the array's frequency, rounded up. -/
def State.beatCycles (s : State) (n : Nat) : Nat := (1000000 + s.freq (n / 64) - 1) / s.freq (n / 64)

end Sys2Proof.Machine
end

