-- ==== Sys2Proof/Machine/Operands.lean ====
section
/-! DEFINITION. Machine/Operands.lean: the register files, every source and destination form, landings, rings and
variable producers (R44-R54, R203-R207, R389-R391). -/

namespace Sys2Proof.Machine

open Sys2Proof

/-! ## S registers (R203-R205) -/

/-- R204: s60-s63 are the shadow copy while a user-level handler runs. -/
def Ctx.shadowed (x : Ctx) (c : Nat) : Bool := x.uih && decide (60 ≤ c)

/-- The value of an S register; s0 reads 0. -/
def Ctx.regS (x : Ctx) (c : Nat) : Word :=
  if c == 0 then 0 else if x.shadowed c then x.sh.get 0 c else x.s.get 0 c

/-- The full/empty state of an S register; s0 is always full. -/
def Ctx.feS (x : Ctx) (c : Nat) : FE :=
  if c == 0 then .full else if x.shadowed c then x.shfe.get .full c else x.fe.get .full c

/-- An original or shadow register set to a value and a state; its map entry is freed (R389). -/
def Ctx.putS (x : Ctx) (shadow : Bool) (c : Nat) (w : Word) (f : FE) : Ctx :=
  if c == 0 then x
  else if shadow then { x with sh := x.sh.set c w, shfe := x.shfe.set c f, shmaps := x.shmaps.filter fun m => m.1 != c }
  else { x with s := x.s.set c w, fe := x.fe.set c f, maps := x.maps.filter fun m => m.1 != c }

/-- R54: a variable producer leaves its destination empty, its value unchanged. -/
def Ctx.emptyS (x : Ctx) (c : Nat) : Ctx :=
  if c == 0 then x
  else if x.shadowed c then { x with shfe := x.shfe.set c .empty, shmaps := x.shmaps.filter fun m => m.1 != c }
  else { x with fe := x.fe.set c .empty, maps := x.maps.filter fun m => m.1 != c }

/-! ## Predicates, branch registers, V registers, rings -/

/-- R51: p0 reads true. -/
def Ctx.pred (x : Ctx) (n : Nat) : Bool := n == 0 || x.p / 2 ^ n % 2 == 1

/-- R51: a write of p0 is discarded. -/
def Ctx.setPred (x : Ctx) (n : Nat) (b : Bool) : Ctx :=
  if n == 0 then x else { x with p := x.p - x.p / 2 ^ n % 2 * 2 ^ n + (if b then 2 ^ n else 0) }

def zeroLanes : Lanes := splat 0
def Ctx.regV (x : Ctx) (n : Nat) : Lanes := x.v.get zeroLanes n

/-- R52: an x0 or x1 ring entry. -/
def Ctx.tapS (x : Ctx) (x1 : Bool) (d : Nat) : Word := nth 0 (if x1 then x.x1 else x.x0) d

/-- R385: bank 0 outside handlers, bank 1 inside. -/
def Ctx.wide (x : Ctx) (home : Nat) : Tbl (List Lanes) := if home == 0 then x.wide0 else x.wide1

/-- R46: ring units 0 y0, 1 y1, 2 ld, 3 md. -/
def Ctx.tapV (x : Ctx) (u d : Nat) : Lanes := nth zeroLanes ((x.wide x.depth).get [] u) d

/-- R137, R138: an open mrun play of the code that runs context j. -/
def Core.playing (c : Core) (j : Nat) : Bool := c.play.any fun p => p.ctx == j && p.home == (c.ctx j).depth

/-- R53: a ring entry enters at depth 0. -/
def push4 {α : Type} (l : List α) (v : α) : List α := (v :: l).take 4

/-! ## Faults of a read -/

/-- A precise fault with TINFO only (R379). -/
def fault (cause tinfo : Nat) : Void := .trap ⟨cause, 0, tinfo, none, none, false⟩

/-- A precise fault with a DFAULT address (R379, R212). -/
def faultAt (cause tinfo info addr : Nat) : Void := .trap ⟨cause, 0, tinfo, some ⟨3, 0, info, addr, 0, 0⟩, none, false⟩

/-- R380, R389: the deferred fault of an empty-faulted register, from its compact record and map. -/
def Ctx.deferred (x : Ctx) (c : Nat) : Void :=
  let r := (x.regS c).toNat
  let kind := fld r 63 56
  let map := (((if x.shadowed c then x.shmaps else x.maps).find? fun m => m.1 == c).map (·.2)).getD 0
  let port := kind == 0x21
  .trap ⟨kind, 0, 0, some ⟨0, c, if port then fld r 15 0 else fld r 54 52, if port then 0 else fld r 51 0,
    map % 2 ^ 64, map / 2 ^ 64⟩, some c, false⟩

/-! ## Sources (R35 ReadSrc, R44, R46, R47) -/

/-- The context every source of the bundle is read from (R8). -/
def State.rd (s : State) : Ctx := s.issue.rd.getD s.me

/-- R35, R44: an S source: its value, a stall on an empty register in mode 0, the empty-read fault in
mode 1, or the register's deferred fault. -/
def readSrc (x : Ctx) : SSrc → Except Void Word
  | .tap x1 d => .ok (x.tapS x1 d.toNat)
  | .reg n trap =>
    match x.feS n.toNat with
    | .full => .ok (x.regS n.toNat)
    | .empty => .error (if trap then fault 0x12 n.toNat else .stall .fe)
    | .faulted => .error (x.deferred n.toNat)

def State.readS (s : State) (a : SSrc) : Except Void Word := readSrc s.rd a

/-- R56: a destination read as a source, in mode 0. -/
def State.readD (s : State) (d : SDst) : Except Void Word := readSrc s.rd (.reg d false)

/-- R46, R206: a V source never stalls and never faults. -/
def State.readV (s : State) : VSrc → Lanes
  | .reg n _ _ => s.rd.regV n.toNat
  | .tap u d => s.rd.tapV u.toNat d.toNat

/-- R47: a V short source. -/
def State.readVS (s : State) : VShort → Lanes
  | .reg n _ => s.rd.regV n.toNat
  | .tap u d => s.rd.tapV u.toNat d.toNat

/-- A sources list read in order; the first failure is the bundle's (R381). -/
def State.readAll (s : State) : List SSrc → Except Void (List Word)
  | [] => .ok []
  | a :: t => do
    let v ← s.readS a
    let r ← s.readAll t
    pure (v :: r)

/-! ## Landings (R35 Land, R52, R53) -/

/-- R45: the destination an S destination code names. -/
def sdst (d : SDst) : Dest := if d.toNat == 0 then .none else .s d.toNat

/-- R48: the destination a V destination field names. -/
def vdst : VDst → Dest
  | .reg n => .v n.toNat
  | .ring => .none

/-- R37: the unit of the bundle's next S slot, and of its next V slot. -/
def State.xUnit (s : State) : LUnit := if s.issue.nS == 0 then .x0 else .x1
def State.yUnit (s : State) : LUnit := if s.issue.nV == 0 then .y0 else .y1

/-- R204: a landing that will go to the shadow copy. -/
def Ctx.toShadow (x : Ctx) : Dest → Bool
  | .s c => x.shadowed c
  | _ => false

/-- A landing scheduled n ticks after the bundle being issued (R35). -/
def Ctx.land (x : Ctx) (u : LUnit) (d : Dest) (v : Word) (w : Lanes) (n : Nat) (fl : FlagSet) (toM : Bool)
    (slot : Nat) (b : BeatWrite) : Ctx :=
  { x with flights := x.flights ++ [⟨u, d, v, w, n, fl, toM, slot, x.depth, x.toShadow d, b⟩] }

/-- An S-class result of the bundle's next S slot (R67). -/
def State.landX (s : State) (d : Dest) (v : Word) (n : Nat) (fl : FlagSet) : State :=
  s.updMe fun x => x.land s.xUnit d v [] n fl false s.issue.pos .none

/-- A V-class result of the bundle's next V slot (R98). -/
def State.landY (s : State) (d : Dest) (w : Lanes) (n : Nat) (fl : FlagSet) : State :=
  s.updMe fun x => x.land s.yUnit d 0 w n fl false s.issue.pos .none

/-- An S-wide landing with no ring: lds, nxt, a branch target or link, crd (R52). -/
def State.landS (s : State) (u : LUnit) (d : Dest) (v : Word) (n : Nat) : State :=
  s.updMe fun x => x.land u d v [] n 0 false s.issue.pos .none

/-- A wide landing of ldv, mdrain or cbget (R52). -/
def State.landW (s : State) (u : LUnit) (d : Dest) (w : Lanes) (n : Nat) (fl : FlagSet) (toM : Bool) : State :=
  s.updMe fun x => x.land u d 0 w n fl toM s.issue.pos .none

/-- A beat's write of the array, with its MSTAT flags (R117). -/
def State.landB (s : State) (b : BeatWrite) (n : Nat) (fl : FlagSet) : State :=
  s.updMe fun x => x.land .beat .none 0 [] n fl true s.issue.pos b

/-- The register a landing reaches (R53): full, with its value. -/
def Ctx.putDest (x : Ctx) (f : Flight) : Ctx :=
  match f.dest with
  | .none => x
  | .s c => x.putS f.shadow c f.val .full
  | .p n => x.setPred n (f.val != 0)
  | .b n => { x with b := x.b.set n f.val }
  | .v n => { x with v := x.v.set n f.wide }

/-- The ring a landing enters (R52). -/
def Ctx.putRing (x : Ctx) (f : Flight) : Ctx :=
  let wide := fun (u : Nat) =>
    if f.home == 0 then { x with wide0 := x.wide0.set u (push4 (x.wide0.get [] u) f.wide) }
    else { x with wide1 := x.wide1.set u (push4 (x.wide1.get [] u) f.wide) }
  match f.unit with
  | .x0 => { x with x0 := push4 x.x0 f.val }
  | .x1 => { x with x1 := push4 x.x1 f.val }
  | .y0 => wide 0
  | .y1 => wide 1
  | .ld => wide 2
  | .md => wide 3
  | .lds | .nxt | .btarget | .crd | .cbget | .beat => x

/-- Rows of an accumulator or weight buffer: 128 zero elements by default (R115). -/
def zeroRow : List W32 := List.replicate 128 0
def zeroXRow : List XF19 := List.replicate 128 0

def Core.acc (c : Core) (tile : Bool) : Tbl (List W32) := if tile then c.acc1 else c.acc0
def Core.setAcc (c : Core) (tile : Bool) (t : Tbl (List W32)) : Core :=
  if tile then { c with acc1 := t } else { c with acc0 := t }

/-- R30, R131: the accumulation at the landing, one addition a column. -/
def accumulate (row sums : List W32) : List (W32 × FlagSet) :=
  row.zipWith (fun a t => arraySum a (value .fp32 t.toNat)) sums

/-- What a beat writes at its landing (R129-R134), and the flags the accumulation raises. -/
def Core.beatWrite (c : Core) : BeatWrite → Core × FlagSet
  | .none => (c, 0)
  | .push r a b => ({ c with shadow := (c.shadow.set r a).set (r + 1) b }, 0)
  | .swap => ({ c with active := c.shadow, shadow := c.active }, 0)
  | .acc tile q sums =>
    let r := accumulate ((c.acc tile).get zeroRow q) sums
    ((c.setAcc tile ((c.acc tile).set q (r.map (·.1)))).count 0x122 1, orFlags (r.map (·.2)))
  | .zero tile first n =>
    (c.setAcc tile ((List.range n).foldl (fun t i => Tbl.set ((first + i) % 128) zeroRow t) (c.acc tile)), 0)

/-- One landing of context j is performed (R53). -/
def Core.landOne (j : Nat) (c : Core) (f : Flight) : Core :=
  let r := c.beatWrite f.beat
  r.1.setCtx j ((((r.1.ctx j).putRing f).putDest f).setFlags f.toM (f.flags ||| r.2))

/-- The landings picked by p are performed in issue order and leave the flights. -/
def Core.landIf (c : Core) (j : Nat) (p : Flight → Bool) : Core :=
  let due := (c.ctx j).flights.filter p
  let x := c.ctx j
  due.foldl (Core.landOne j) (c.setCtx j { x with flights := x.flights.filter fun f => !p f })

/-- One tick passes for the flights of the code that issues (R6, R53); those of an interrupted level stay
frozen (R390). -/
def Core.age (c : Core) (j : Nat) : Core :=
  let x := c.ctx j
  c.setCtx j { x with flights := x.flights.map fun f =>
    if f.home == x.depth then { f with rem := f.rem - 1 } else f }

/-- The flights of the code that issues that are due (R53). -/
def Core.landDue (c : Core) (j : Nat) : Core :=
  let k := (c.ctx j).depth
  c.landIf j fun f => f.home == k && f.rem == 0

/-- R6, R53: one tick of context j. -/
def Core.tick (c : Core) (j : Nat) : Core := (c.age j).landDue j

/-! ## Variable producers (R52, R54, R205, R389, R391) -/

/-- A producer issues: its destination is empty until it completes (R54). -/
def Ctx.addProd (x : Ctx) (dst : Nat) (w : Work) (d : Option Done) : Ctx :=
  let y := x.emptyS dst
  { y with prods := y.prods ++ [⟨dst, 0, x.shadowed dst, x.depth, w, d⟩] }

def State.produce (s : State) (dst : Nat) (w : Work) (d : Option Done) : State :=
  s.updMe fun x => x.addProd dst w d

/-- R389: the compact record of a deferred fault. -/
def FaultRec.compact (r : FaultRec) : Word :=
  BitVec.ofNat 64 (r.kind * 2 ^ 56 + (if r.lost then 2 ^ 55 else 0) + r.cause % 8 * 2 ^ 52 + r.addr % 2 ^ 52)

/-- R386: the pool byte of frame k of context j. -/
def frameAt (j k : Nat) : Nat := if k == 0 then 0x35000 + 0x2C00 * j else 0x40000 + 0x2000 * (k - 1) + 0x800 * j

def frameBytes : Nat := 0x800

/-- The bytes of frame k of context j that two memories hold differently, as the first holds them. -/
def frameDiff (j k : Nat) (a b : Memory) : List Host.Cell :=
  let f := frameAt j k
  (((a.readN f frameBytes).zip (b.readN f frameBytes)).zipIdx.filter fun e => e.1.1 != e.1.2).map fun e => (f + e.2, e.1.1)

/-- A two-bit full/empty code in a table of bytes (R208). -/
def setFe (m : Memory) (at_ c v : Nat) : Memory :=
  let b := (m.read (at_ + c / 4)).toNat
  let sh := 2 ^ (2 * (c % 4))
  m.writeN (at_ + c / 4) [BitVec.ofNat 8 (b - b / sh % 4 * sh + v * sh)]

/-- R389: an entry of the map store. -/
def mapBytes (m : Nat × Nat) : List Byte := toBytes 1 m.1 ++ toBytes 1 1 ++ toBytes 6 0 ++ toBytes 16 m.2

/-- R389: the pool bytes of a frame's map store with no entry for a register. -/
def dropMaps (m : Memory) (f dst : Nat) : Memory :=
  (List.range 16).foldl (fun m i =>
    let e := f + 0x5E0 + 24 * i
    if (m.read (e + 1)).toNat % 2 == 1 && (m.read e).toNat == dst then m.zero e 24 else m) m

/-- R387, R389, R391: a producer completes into the image of frame k; the register's earlier map is freed. -/
def Core.completeFrame (c : Core) (j k dst : Nat) (d : Done) : Core :=
  let f := frameAt j k
  let c := { c with pool := dropMaps c.pool f dst }
  let free := (List.range 16).filter fun i => (c.pool.read (f + 0x5E0 + 24 * i + 1)).toNat % 2 == 0
  let put := fun (w : Word) (v : Nat) =>
    { c with pool := setFe (c.pool.writeN (f + 0x40 + 8 * dst) (toBytes 8 w.toNat)) (f + 0x240) dst v }
  if dst == 0 then c
  else match d with
    | .value w => put w 0
    | .fail r =>
      match r.map, free.head? with
      | some m, some i =>
        let c := put r.compact 2
        { c with pool := c.pool.writeN (f + 0x5E0 + 24 * i) (mapBytes (dst, m)) }
      | some _, none => put { r with lost := true }.compact 2
      | none, _ => put r.compact 2

/-- The bytes of its frame that a pending reti does not see as they stand (R392). -/
def Ctl.undo : Ctl → List Host.Cell
  | .reti u => u
  | _ => []

/-- R391, R392: a producer that completes into frame k while a reti waits completes into the frame as that reti sees it too:
without the stores of the reti bundle. -/
def Core.completeUndone (c : Core) (j k dst : Nat) (d : Done) : Core :=
  let x := c.ctx j
  let t := c.completeFrame j k dst d
  if x.pend.undo.isEmpty then t
  else
    let seen := x.pend.undo.foldl (fun (m : Memory) b => m.writeN b.1 [b.2]) c.pool
    let u := frameDiff j (x.depth - 1) (({ c with pool := seen }).completeFrame j k dst d).pool t.pool
    t.setCtx j { t.ctx j with pend := .reti u }

/-- R389: entries of the context's map store in use. -/
def Ctx.mapsHeld (x : Ctx) : Nat := x.maps.length + x.shmaps.length + (x.kept.map fun h => h.maps.length).sum

/-- R205, R389: a producer completes into the live register, its map kept while the store has room. -/
def Ctx.completeLive (x : Ctx) (shadow : Bool) (dst : Nat) (d : Done) : Ctx :=
  match d with
  | .value w => x.putS shadow dst w .full
  | .fail r =>
    if dst == 0 then x
    else match r.map with
      | none => x.putS shadow dst r.compact .faulted
      | some m =>
        let y := x.putS shadow dst r.compact .faulted
        if 16 ≤ y.mapsHeld then x.putS shadow dst { r with lost := true }.compact .faulted
        else if shadow then { y with shmaps := (dst, m) :: y.shmaps }
        else { y with maps := (dst, m) :: y.maps }

/-- R204, R389, R391: a producer of a user-level handler on which a supervisor trap nests completes into the shadow kept
for the handler (log 44). -/
def Ctx.completeKept (x : Ctx) (k dst : Nat) (d : Done) : Ctx :=
  let upd := fun (w : Word) (f : FE) (m : List (Nat × Nat)) => { x with kept := x.kept.map fun h =>
    if h.depth == k then { h with s := h.s.set dst w, fe := h.fe.set dst f, maps := m ++ h.maps.filter fun e => e.1 != dst }
    else h }
  match d with
  | .value w => upd w .full []
  | .fail r =>
    match r.map with
    | none => upd r.compact .faulted []
    | some m =>
      if 16 ≤ (upd 0 .full []).mapsHeld then upd { r with lost := true }.compact .faulted []
      else upd r.compact .faulted [(dst, m)]

/-- A producer of context j completes (R54, R96, R391): the register it names, and the event flag. -/
def Core.complete (c : Core) (j : Nat) (p : Prod) (d : Done) : Core :=
  let x := c.ctx j
  let c := match p.target with
    | 0 => c.setCtx j (x.completeLive p.shadow p.dst d)
    | k + 1 => if p.shadow then c.setCtx j (x.completeKept k p.dst d) else c.completeUndone j k p.dst d
  c.setCtx j { c.ctx j with ev := true }

/-- Producer k of a context is taken off the list and completes with d. -/
def State.finish (s : State) (n j k : Nat) (p : Prod) (d : Done) : State :=
  s.updCore n fun c =>
    let x := c.ctx j
    (c.setCtx j { x with prods := dropAt x.prods k }).complete j p d

/-- The deferred memory-access fault (R379, R389). -/
def memFault (cause addr : Nat) (map : Option Nat) : Done := .fail ⟨0x20, cause, addr, map, false⟩

/-! ## Violations (R219, R398, R399) -/

/-- A violation or a failed item enters a log of four words, unless an entry is valid (R219, R277). DESIGN CHOICE (log 54): the
memory cause that R432 has recorded with a cause code stands above it, in bits 42:40 of the second word. -/
def logWords (l : List Nat) (addr kind : Nat) (isFault : Bool) (agent wid : Nat) : List Nat :=
  let w1 := nth 0 l 1
  let n := min (nth 0 l 3 % 2 ^ 32 + 1) (2 ^ 32 - 1)
  if fld w1 63 63 == 1 then [nth 0 l 0, w1 - fld w1 62 62 * 2 ^ 62 + 2 ^ 62, nth 0 l 2, n]
  else [addr, 2 ^ 63 + fld w1 62 62 * 2 ^ 62 + kind % 2048 * 2 ^ 32 + (if isFault then 2 ^ 31 else 0) + agent % 2 ^ 16,
    wid, n]

def logTbl (t : Tbl Word) (addr kind agent wid : Nat) : Tbl Word :=
  let l := logWords (tab 4 fun i => (t.get 0 i).toNat) addr kind false agent wid
  tab 4 fun i => (i, BitVec.ofNat 64 (nth 0 l i))

/-- The work identifier of the item a context runs. -/
def Ctx.wid (x : Ctx) : Nat := (x.held.map (·.wid)).getD 0

/-- A context's own violation, of an access that the item with a work identifier issued (R399). -/
def State.violateAs (s : State) (n j addr kind wid : Nat) : State :=
  s.updCtx n j fun x => { x with vlog := logTbl x.vlog addr kind (ctxNum n j) wid }

/-- A violation of the item that the context runs. -/
def State.violate (s : State) (n j addr kind : Nat) : State := s.violateAs n j addr kind (s.ctx n j).wid

/-- The violation kind of a memory cause; a failed translation of a context's own access is none (R399). -/
def violKind : Nat → Option Nat
  | 2 => some 1 | 3 => some 2 | 4 => some 3 | 6 => some 4 | 7 => some 5 | _ => none

def State.violateCause (s : State) (n j addr cause : Nat) : State :=
  match violKind cause with
  | some k => s.violate n j addr k
  | none => s

end Sys2Proof.Machine
end

