-- ==== Sys2Proof/Machine/Items.lean ====
section
/-! DEFINITION. Machine/Items.lean: device accesses of hardware agents, queue logs, array release, and the end,
failure and kill of work items (R87, R272-R277, R328, R338-R341). -/

namespace Sys2Proof.Machine

open Sys2Proof

/-! ## Device accesses made for a virtual device (R260, R264, R432) -/

/-- An access cut at 64 KB page boundaries. -/
def pieces : Nat → Nat → Nat → List (Nat × Nat)
  | 0, _, _ => []
  | f + 1, va, n =>
    if n == 0 then [] else
    let k := min n (65536 - va % 65536)
    (va, k) :: pieces f (va + k) (n - k)

def piecesOf (va n : Nat) : List (Nat × Nat) := pieces (n / 65536 + 2) va n

/-- Bytes read at their homes, through the given translations or by walks: the bytes, or the cause and the
first byte refused. A quiet access is part of a request that is counted by itself (R262). -/
def State.devReadL (s : State) (tlb : List TlbEntry) (v : Nat) (user quiet : Bool) :
    List (Nat × Nat) → State × Except (Nat × Nat) (List Byte)
  | [] => (s, .ok [])
  | (va, k) :: t =>
    match s.translate tlb v va .r user with
    | .error c => (s.walked tlb v va, .error (c, va))
    | .ok tr =>
      let r := (s.walked tlb v va).homeRead tr.pa k v (fld tr.pte 8 7) quiet
      match r.2 with
      | .error c => (r.1, .error (c, va + s.firstBad tr.pa k))
      | .ok bs =>
        let q := r.1.devReadL tlb v user quiet t
        match q.2 with
        | .error e => (q.1, .error e)
        | .ok bs' => (q.1, .ok (bs ++ bs'))

def State.devReadT (s : State) (tlb : List TlbEntry) (v va n : Nat) (user : Bool) :
    State × Except (Nat × Nat) (List Byte) :=
  s.devReadL tlb v user false (piecesOf va n)

def State.devRead (s : State) (v va n : Nat) (user : Bool) : State × Except (Nat × Nat) (List Byte) :=
  s.devReadT [] v va n user

/-- Bytes written at their homes by owner `own`; nothing is written once a piece is refused. -/
def State.devWriteL (s : State) (tlb : List TlbEntry) (v : Nat) (user : Bool) (own : Nat) (quiet : Bool) :
    List (Nat × Nat) → List Byte → State × Except (Nat × Nat) Unit
  | [], _ => (s, .ok ())
  | (va, k) :: t, bs =>
    match s.translate tlb v va .w user with
    | .error c => (s.walked tlb v va, .error (c, va))
    | .ok tr =>
      let s := s.walked tlb v va
      if s.gone tr.pa k then (s, .error (3, va + firstMet s.lostRanges tr.pa k))
      else (s.homeWrite tr.pa (bs.take k) v (fld tr.pte 8 7) .write own quiet).devWriteL tlb v user own quiet t (bs.drop k)

def State.devWriteT (s : State) (tlb : List TlbEntry) (v va : Nat) (bs : List Byte) (user : Bool) (own : Nat) :
    State × Except (Nat × Nat) Unit :=
  s.devWriteL tlb v user own false (piecesOf va bs.length) bs

def State.devWrite (s : State) (v va : Nat) (bs : List Byte) (user : Bool) (own : Nat) :
    State × Except (Nat × Nat) Unit :=
  s.devWriteT [] v va bs user own

/-- The first refusal of an access of n bytes, were it made. -/
def State.devCheck (s : State) (tlb : List TlbEntry) (v va n : Nat) (a : Acc) (user : Bool) : Except (Nat × Nat) Unit :=
  (piecesOf va n).foldl (fun r p =>
    match r with
    | .error e => .error e
    | .ok _ =>
      match s.translate tlb v p.1 a user with
      | .error c => .error (c, p.1)
      | .ok t => if s.gone t.pa p.2 then .error (3, p.1 + firstMet s.lostRanges t.pa p.2) else .ok ()) (.ok ())

/-- R432: the pieces of a record pool, a save area or a unit block, for which both permissions are needed: what they hold, or
the cause and the address of the refusal. -/
def State.recReadL (s : State) (v : Nat) : List (Nat × Nat) → State × Except (Nat × Nat) (List Byte)
  | [] => (s, .ok [])
  | (va, k) :: t =>
    match s.translate [] v va .rw false with
    | .error c => (s.walked [] v va, .error (c, va))
    | .ok _ =>
      let r := s.devRead v va k false
      match r.2 with
      | .error e => (r.1, .error e)
      | .ok bs =>
        let q := r.1.recReadL v t
        match q.2 with
        | .error e => (q.1, .error e)
        | .ok bs' => (q.1, .ok (bs ++ bs'))

def State.recRead (s : State) (v va n : Nat) : State × Except (Nat × Nat) (List Byte) := s.recReadL v (piecesOf va n)

/-- R432: the same pieces written by owner `own`; nothing is written once a piece is refused. -/
def State.recWriteL (s : State) (v own : Nat) : List (Nat × Nat) → List Byte → State × Except (Nat × Nat) Unit
  | [], _ => (s, .ok ())
  | (va, k) :: t, bs =>
    match s.translate [] v va .rw false with
    | .error c => (s.walked [] v va, .error (c, va))
    | .ok _ =>
      let r := s.devWrite v va (bs.take k) false own
      match r.2 with
      | .error e => (r.1, .error e)
      | .ok _ => r.1.recWriteL v own t (bs.drop k)

def State.recWrite (s : State) (v va : Nat) (bs : List Byte) (own : Nat) : State × Except (Nat × Nat) Unit :=
  s.recWriteL v own (piecesOf va bs.length) bs

/-- R432: what the LOG holds of a refused access of this kind: cause 0x20 and the access's memory cause (log 54). -/
def recCause (c : Nat) : Nat := 0x20 + 256 * (c % 8)

/-- A number of n bytes of device memory as hardware reads it at supervisor level; 0 where it cannot. -/
def State.devNum (s : State) (v va n : Nat) : Nat :=
  match (s.devRead v va n false).2 with
  | .ok bs => ofBytes bs
  | .error _ => 0

/-- A write of hardware at supervisor level, dropped where it is refused; owner 0xFFF is no context. -/
def State.devPutNow (s : State) (v va : Nat) (bs : List Byte) (own : Nat) : State := (s.devWrite v va bs false own).1

/-- Such a write, which waits for a migrating page (R268). -/
def State.devPut (s : State) (v va : Nat) (bs : List Byte) (own : Nat) : State :=
  if s.hwWaits v [(va, bs.length)] then s.hwPush v (.put va bs own) else s.devPutNow v va bs own

/-- R285: UPEND grows, saturating, and EV is set (R96). -/
def Ctx.raiseUpend (x : Ctx) : Ctx := { x with upend := min 255 (x.upend + 1), ev := true }

def State.userIrq (s : State) (ctxn : Nat) : State := s.updCtx (ctxn / 4) (ctxn % 4) Ctx.raiseUpend

/-- STATUS of a slot, whose bits stay (R275); the write of STATE 2 or 3 of a packet with UIRQ is followed by the interrupt of
its poster, while its cluster is of the packet's device (R18, R285). -/
def State.putStatusNow (s : State) (v slot w own : Nat) (irq : Option Nat) : State :=
  let t := { s.devPutNow v (slot + 4) (toBytes 4 w) own with slotBits := s.slotBits }
  match irq with
  | some c => if t.vdevOf (c / 4) == v then t.userIrq c else t
  | none => t

def State.putStatus (s : State) (v slot w own : Nat) (irq : Option Nat) : State :=
  if s.hwWaits v [(slot + 4, 4)] then s.hwPush v (.status slot w own irq) else s.putStatusNow v slot w own irq

/-! ## Queue logs and read indexes (R257, R275, R277) -/

/-- An entry in the LOG of a queue header (R277), written for the work of `own` (R257). -/
def State.queueLogNow (s : State) (v hdr addr kind : Nat) (isFault : Bool) (agent wid own : Nat) : State :=
  let r := s.devRead v (hdr + 32) 32 false
  match r.2 with
  | .error _ => r.1
  | .ok bs =>
    let l := logWords (tab 4 fun i => ofBytes ((bs.drop (8 * i)).take 8)) addr kind isFault agent wid
    r.1.devPutNow v (hdr + 32) (l.flatMap (toBytes 8)) own

def State.queueLog (s : State) (v hdr addr kind : Nat) (isFault : Bool) (agent wid own : Nat) : State :=
  if s.hwWaits v [(hdr + 32, 32)] then s.hwPush v (.log hdr addr kind isFault agent wid own)
  else s.queueLogNow v hdr addr kind isFault agent wid own

/-- R272: the device address of slot n of the queue whose header is at hdr. -/
def State.slotVa (s : State) (v hdr n : Nat) : Nat :=
  s.devNum v (hdr + 16) 8 + 64 * (n % 2 ^ s.devNum v (hdr + 24) 1)

/-- R275: RI passes every slot, up to TI, whose STATE is 2 or 3. -/
def State.riNow (s : State) (v hdr ti own : Nat) : Nat → State
  | 0 => s
  | f + 1 =>
    let ri := s.devNum v (hdr + 8) 8
    let st := s.devNum v (s.slotVa v hdr ri + 4) 1 % 16
    if decide (ri < ti) && (st == 2 || st == 3) then
      (s.devPutNow v (hdr + 8) (toBytes 8 (ri + 1)) own).riNow v hdr ti own f
    else s

/-- A queue's header and its slots. -/
def State.queueRanges (s : State) (v hdr : Nat) : List (Nat × Nat) :=
  [(hdr, 64), (s.devNum v (hdr + 16) 8, 64 * 2 ^ min 16 (s.devNum v (hdr + 24) 1))]

/-- The take index of the queue with its header at q (R275). -/
def State.ti (s : State) (v q : Nat) (l : Bool) : Nat :=
  ((s.takes.find? fun t => t.vdev == v && t.queue == q && t.launchQ == l).map (·.ti)).getD 0

def State.setTi (s : State) (v q : Nat) (l : Bool) (n : Nat) : State :=
  { s with takes := ⟨v, q, l, n⟩ :: s.takes.filter fun t => !(t.vdev == v && t.queue == q && t.launchQ == l) }

/-- R275: RI of a queue advances, for the work of `own` (R257). -/
def State.advanceRi (s : State) (v hdr : Nat) (l : Bool) (own : Nat) : State :=
  if s.hwWaits v (if s.migrations.isEmpty then [] else s.queueRanges v hdr) then s.hwPush v (.ri hdr l own)
  else s.riNow v hdr (s.ti v hdr l) own 65536

/-! ## The array at a release point (R87, R126, R317) -/

/-- R215: DPROG from its fields. -/
def dprogOf (retired gen segs slot : Nat) : Word :=
  BitVec.ofNat 64 (retired % 65536 * 65536 + gen % 16 * 4096 + segs % 128 * 16 + slot % 16)

/-- An in-flight count changes in the bank with this generation (R126). -/
def DBank.adj (b : DBank) (gen plus minus : Nat) : DBank :=
  if b.valid && b.tag == gen then { b with count := b.count + plus - minus } else b

/-- The in-flight count of MCTL.BDT's bank of a generation (R126). -/
def Ctx.bankAdj (x : Ctx) (gen plus minus : Nat) : Ctx :=
  let k := bits x.mctl 42 40
  let t := x.dt.get DTable.reset k
  { x with dt := x.dt.set k { t with b0 := t.b0.adj gen plus minus, b1 := t.b1.adj gen plus minus } }

/-- Counted tiles leave the counts of their banks; the first has `used` segments consumed (R126). -/
def Ctx.uncount (x : Ctx) : Nat → List Tile → Ctx
  | _, [] => x
  | used, t :: ts => (if t.counted then x.bankAdj t.gen 0 (64 - used) else x).uncount (if t.failed then used else 0) ts

/-- R125, R284: the decoder's FIFO emptied; its segments will be decoded again (R321, DREPLAY). -/
def Core.clearFifo (c : Core) : Core :=
  { c with fifo := [], fifoSegs := 0, malformed := none, replay := max c.replay c.fifoSegs }

/-- R125: the context whose tiles the decoder decodes: the owner, or while there is none the one that claimed the head B
tile. -/
def Core.decodes (c : Core) : Option Nat :=
  match c.owner with
  | some o => some (o % 4)
  | none => c.btiles.head?.map (·.by_)

/-- R284: the FIFO emptied when it decodes for context j. -/
def Core.dropFifo (c : Core) (j : Nat) : Core := if c.decodes == some j then c.clearFifo else c

/-- R163: the ring that an outstanding tld claims in, and its offset. -/
def Prod.ringAt (p : Prod) : Option (Bool × Nat) :=
  match p.work with
  | .tile o => if o.store || o.dest == .scratch then none else o.off.map fun a => (o.dest == .ringB, a)
  | _ => none

/-- R245: a ring tld whose tile has left its ring reaches no ring bytes any more. -/
def Prod.unland (p : Prod) : Prod :=
  match p.ringAt, p.work with
  | some _, .tile o => { p with work := .tile { o with off := none } }
  | _, _ => p

/-- The claim belongs to a tile that an array save holds (R224). -/
def Core.claimSaved (c : Core) (a : Bool × Nat) : Bool :=
  c.saved.any fun s => s.late.any fun l => l.ringB == a.1 && l.off == a.2 && l.done.isNone

/-- R87, R245: every held tile is retired: the ring tlds outstanding, those of saved tiles apart, reach no ring bytes. -/
def Core.unlandAll (c : Core) : Core :=
  { c with ctxs := c.ctxs.mapVals fun _ x => { x with
      prods := x.prods.map fun p => if p.ringAt.any c.claimSaved then p else p.unland } }

/-- R87: the array released by its owner. -/
def Core.release (c : Core) (n j : Nat) : Core :=
  if c.owner != some (ctxNum n j) then c
  else
    let gone := (c.btiles.filter fun t => !t.failed).length
    let c := c.unlandAll
    let x := c.ctx j
    let x := { x.uncount c.brc c.btiles with dprog := dprogOf (bits x.dprog 31 16 + gone) 0 0 c.bslot }
    { c.setCtx j x with
      owner := none, ahd := c.atl, bhd := c.btl, atiles := [], btiles := [], arc := 0, brc := 0, fifo := [],
      fifoSegs := 0, replay := 0, malformed := none, scales := [], scalesIn := [], bscales := none,
      play := none }

/-- R92, R116: what handlers of context j at a depth or deeper saved is forgotten as they end or their item leaves. -/
def Core.forget (c : Core) (j depth : Nat) : Core :=
  { c with saved := c.saved.filter fun a => a.by_ != j || decide (a.depth < depth) }

/-! ## Leaving a context (R337) -/

/-- The context becomes idle; outstanding producers no longer reach a register. -/
def Ctx.leave (x : Ctx) : Ctx :=
  { x with
    held := none, flights := [], stall := none, waiting := false, pend := .none, depth := 0, kept := [], level := 0,
    uih := false, prep := [], killed := false, preq := false, preqTicks := 0, asked := false, storeFault := none,
    claimWait := none, claimed := none, phaseAcq := [], units := Units.reset, shmaps := [],
    prods := x.prods.map fun p => { p with dst := 0, target := 0 } }

/-- R360: the registrations of a context's earlier phase.rel go on record at their homes. -/
def State.register (s : State) (n j : Nat) : State :=
  let x := s.ctx n j
  { s.setCtx n j { x with phaseRel := [] } with
    phases := s.phases ++ (x.phaseRel.map fun r => (⟨r.1, n, r.2⟩ : PhaseRec)).filter fun r => !s.phases.contains r }

/-- R354: the core lies in the instance of the scope that holds core n. -/
def scopeHolds (code n m : Nat) : Bool :=
  match code with
  | 0 => n == m
  | 1 => n / 8 == m / 8
  | 2 => n / 64 == m / 64
  | _ => true

/-- R160: an acquire of variable pa by core n at a scope: the home directs its releasers to write back, those of its own
virtual device (R18). -/
def State.phaseAcquire (s : State) (n pa scope : Nat) : State :=
  let due := fun (r : PhaseRec) => r.pa == pa && scopeHolds r.scope r.core n && scopeHolds scope n r.core
    && s.vdevOf r.core == s.vdevOf n
  let s := (s.phases.filter due).foldl (fun s r => if r.scope == 0 then s else s.l1WriteBack r.core fun _ => true) s
  let s := { s with phases := s.phases.filter fun r => !due r }
  if scope == 0 then s else s.l1Acquire n

/-- R160, R360: the first outstanding acquire of a context is performed at its variable's home, after the context's own
releases are on record. -/
def State.acquireNext (s : State) (n j : Nat) : State :=
  match (s.ctx n j).phaseAcq with
  | [] => s
  | (pa, scope) :: t =>
    ((s.register n j).phaseAcquire n pa scope).updCtx n j fun x => { x with phaseAcq := t }

/-- R358: what a context has outstanding of phase is performed before its record leaves. -/
def State.settlePhase (s : State) (n j : Nat) : State :=
  (((s.ctx n j).phaseAcq).foldl (fun s _ => s.acquireNext n j) s).register n j

/-- R87, R337: context j of core n lets its array go and becomes idle. -/
def Core.depart (c : Core) (n j : Nat) : Core :=
  let c := ((c.release n j).dropFifo j).forget j 0
  c.setCtx j (c.ctx j).leave

/-! ## Identifiers and records (R328, R329) -/

/-- R328: the number of items. -/
def Launch.items (l : Launch) : Nat := l.exts.foldl (· * ·) 1

/-- The identifier of item k from its fields, leaf first: (width, extent) pairs. -/
def widGo : List (Nat × Nat) → Nat → Nat → Nat
  | [], _, _ => 0
  | (w, e) :: t, k, sh => k % e * 2 ^ sh + widGo t (k / e) (sh + w)

/-- R328: the k-th identifier in ascending order. -/
def Launch.widOf (l : Launch) (k : Nat) : Nat := widGo (l.widths.zip l.exts).reverse k 0

/-- R328: bits below level lv. -/
def Launch.shift (l : Launch) (lv : Nat) : Nat := (l.widths.drop (lv + 1)).sum

def Launch.recAt (l : Launch) (slot : Nat) : Nat := l.recs + 64 * slot

/-- A kill of R340 covers the identifier. -/
def Launch.dead (l : Launch) (wid : Nat) : Bool := l.killedAll || l.kills.any fun k => wid / 2 ^ k.1 == k.2

def State.launch (s : State) (k : Nat) : Option Launch := (s.launches.find? fun e => e.1 == k).map (·.2)
def State.updLaunch (s : State) (k : Nat) (f : Launch → Launch) : State :=
  { s with launches := s.launches.map fun e => if e.1 == k then (e.1, f e.2) else e }

/-- The LINK that a list gives the record at an address; none where the list does not hold it. -/
def linkOf (l : List Entry) (a : Nat) : Option Nat :=
  match l.dropWhile fun e => e.addr != a with
  | [] => none
  | _ :: t => some ((t.head?.map (·.addr)).getD 0)

/-- A record whose access was refused, the memory cause and the address (R432). -/
abbrev Refused := Entry × Nat × Nat

/-- LINK of a record written, or its write left to wait for a migrating page (R268); the refusal it meets. -/
def State.putLink (s : State) (v a link : Nat) : State × Except (Nat × Nat) Unit :=
  if s.hwWaits v [(a + 56, 8)] then
    (s.hwPush v (.put (a + 56) (toBytes 8 link) 0xFFF), s.devCheck [] v (a + 56) 8 .rw false)
  else s.recWrite v (a + 56) (toBytes 8 link) 0xFFF

/-- R278, R279: LINK of the records whose successor has changed since the list was old; those it cannot be written to. -/
def State.relink (s : State) (v : Nat) (old new : List Entry) : List Entry → State × List Refused
  | [] => (s, [])
  | e :: t =>
    let link := linkOf new e.addr
    if linkOf old e.addr == link then s.relink v old new t
    else
      let w := s.putLink v e.addr (link.getD 0)
      let r := w.1.relink v old new t
      match w.2 with
      | .error x => (r.1, (e, x) :: r.2)
      | .ok _ => r

/-- List p of a cluster becomes l, less the records whose LINK cannot be written. -/
def State.setList (s : State) (cl p : Nat) : Nat → List Entry → State × List Refused
  | 0, _ => (s, [])
  | f + 1, l =>
    let c := s.cluster cl
    let r := (s.updCluster cl fun c => { c with lists := c.lists.set p l }).relink c.vdev (c.lists.get [] p) l l
    if r.2.isEmpty then r
    else
      let q := r.1.setList cl p f (l.filter fun e => !r.2.any fun x => x.1 == e)
      (q.1, r.2 ++ q.2)

/-- The park list of a cluster becomes l, less the records whose LINK cannot be written (R279). -/
def State.setParked (s : State) (cl : Nat) : Nat → List Parked → State × List Refused
  | 0, _ => (s, [])
  | f + 1, l =>
    let c := s.cluster cl
    let es := l.map (·.entry)
    let r := (s.updCluster cl fun c => { c with parked := l }).relink c.vdev (c.parked.map (·.entry)) es es
    if r.2.isEmpty then r
    else
      let q := r.1.setParked cl f (l.filter fun k => !r.2.any fun x => x.1 == k.entry)
      (q.1, r.2 ++ q.2)

/-- R338, R276: a launch all of whose items have ended or been killed: STATE 2, or 3 with CODE 8. DESIGN CHOICE (log 124): only
kill_launch of R340 counts as level 0 killed, and no kill self at level 0. -/
def State.launchCheck (s : State) (k : Nat) : State :=
  match s.launch k with
  | none => s
  | some l =>
    if l.ended || !l.live.isEmpty || !l.retries.isEmpty || !(l.killedAll || decide (l.items ≤ l.next)) then s
    else
      let st := if l.killedAll then 3 + 8 * 16 else 2
      let s := s.devPut l.vdev (l.slotVa + 4) (toBytes 4 st) 0xFFF
      let s := s.updLaunch k fun l => { l with ended := true }
      s.advanceRi l.vdev l.qva true 0xFFF

/-- An item has ended: its slot is free (R334, R338). -/
def State.itemEnd (s : State) (k slot : Nat) : State :=
  (s.updLaunch k fun l => { l with live := l.live.filter fun i => i.slot != slot }).launchCheck k

/-- R330, R341: the record of a killed item that leaves a list is marked KILLED; nothing is written where it cannot be. -/
def State.killedNow (s : State) (v a : Nat) : State :=
  let r := s.recRead v (a + 24) 1
  match r.2 with
  | .error _ => r.1
  | .ok bs =>
    let b := ofBytes bs
    (r.1.recWrite v (a + 24) (toBytes 1 (b - b / 8 % 2 * 8 + 8)) 0xFFF).1

def State.markKilled (s : State) (v : Nat) (e : Entry) : State :=
  if s.hwWaits v [(e.addr + 24, 1)] then s.hwPush v (.killed e.addr) else s.killedNow v e.addr

/-- The record that a waiting write of hardware takes from its barrier. -/
def HwWait.entry (w : HwWait) : Option Entry :=
  match w.op with
  | .unpark _ k _ => some k.entry
  | _ => none

/-- R341: the killed items of a launch leave the lists and the park lists, and running ones are marked. -/
def State.sweepKilled (s : State) (k : Nat) : State × List Refused :=
  match s.launch k with
  | none => (s, [])
  | some l =>
    let widAt := fun (addr : Nat) => ((l.live.find? fun i => l.recAt i.slot == addr).map (·.wid)).getD 0
    let gone := fun (e : Entry) => e.launch == k && l.dead (widAt e.addr)
    let off := s.clusters.flatMap fun c =>
      ((c.2.lists.flatMap fun e => e.2) ++ c.2.parked.map (·.entry)).filter gone
    let off := off ++ (s.hwq.filterMap HwWait.entry).filter gone
    let s := { s with hwq := s.hwq.filter fun w => !w.entry.any gone }
    let s := off.foldl (fun s e => s.markKilled l.vdev e) s
    let step := fun (a : State × List Refused) (r : State → State × List Refused) => let q := r a.1; (q.1, a.2 ++ q.2)
    let a := s.clusters.foldl (fun a c =>
      let a := c.2.lists.foldl (fun a e =>
        let es := e.2.filter fun e => !gone e
        if es.length == e.2.length then a else step a fun s => s.setList c.1 e.1 (es.length + 1) es) a
      let ps := c.2.parked.filter fun e => !gone e.entry
      if ps.length == c.2.parked.length then a else step a fun s => s.setParked c.1 (ps.length + 1) ps) (s, [])
    let s := a.1
    let s := { s with cores := s.cores.mapVals fun _ c => { c with ctxs := c.ctxs.mapVals fun _ x =>
      match x.held with
      | some h => if h.launch == k && l.dead h.wid then { x with killed := true } else x
      | none => x } }
    let s := s.updLaunch k fun l => { l with
      live := l.live.filter fun i => !off.any fun e => e.addr == l.recAt i.slot,
      retries := l.retries.filter fun r => !l.dead r.wid }
    (s.launchCheck k, a.2)

/-- What the policies of R340 do. -/
inductive Policy where
  | ignore | retry | killSelf (l : Nat) | killAll
  deriving DecidableEq, Repr

/-- R340: the levels consulted from the leaf upward. -/
def Launch.policyFrom (l : Launch) (retry : Nat) : Nat → Policy
  | 0 => act 0 .killAll
  | lv + 1 => act (lv + 1) (l.policyFrom retry lv)
where
  act (lv : Nat) (up : Policy) : Policy :=
    let p := l.policy / 4 ^ lv % 4
    let p := if p == 1 && retry == 3 then 3 else p
    match p with
    | 0 => .ignore
    | 1 => .retry
    | 2 => .killSelf lv
    | _ => up

/-- The record slot of an address in a launch's pool. -/
def Launch.slotOf (l : Launch) (addr : Nat) : Nat := (addr - l.recs) / 64

/-- The identifier of a live item by its record slot. -/
def Launch.widAt (l : Launch) (slot : Nat) : Nat := ((l.live.find? fun i => i.slot == slot).map (·.wid)).getD 0

/-- R339, R340: item (slot, wid) of launch k fails: the entry in the LOG, then its levels' policies. A record whose LINK
cannot be written as killed ones leave its list fails in turn (R432), as long as the fuel lasts. -/
def State.failGo : Nat → State → Nat → Nat → Nat → Nat → Nat → Nat → State
  | 0, s, _, _, _, _, _, _ => s
  | f + 1, s, k, slot, wid, cause, addr, agent =>
    match s.launch k with
    | none => s
    | some l =>
      let s := s.queueLog l.vdev l.qva addr cause true agent wid 0xFFF
      let retry := ((l.live.find? fun i => i.slot == slot).map (·.retry)).getD 0
      let s := s.updLaunch k fun l => { l with live := l.live.filter fun i => i.slot != slot }
      let sweep := fun (s : State) =>
        let r := s.sweepKilled k
        r.2.foldl (fun s e => match s.launch e.1.launch with
          | none => s
          | some l => State.failGo f s e.1.launch (l.slotOf e.1.addr) (l.widAt (l.slotOf e.1.addr)) (recCause e.2.1) e.2.2 0xFFFD) r.1
      match l.policyFrom retry (l.nfield - 1) with
      | .ignore => s.launchCheck k
      | .retry => if l.dead wid then s.launchCheck k
        else s.updLaunch k fun l => { l with retries := l.retries ++ [⟨slot, wid, retry + 1⟩] }
      | .killSelf lv =>
        let sh := l.shift lv
        sweep (s.updLaunch k fun l => { l with kills := (sh, wid / 2 ^ sh) :: l.kills })
      | .killAll => sweep (s.updLaunch k fun l => { l with killedAll := true })

/-- The records on lists and park lists. -/
def State.listed (s : State) : Nat :=
  (s.clusters.map fun c => c.2.parked.length + (c.2.lists.map fun e => e.2.length).sum).sum

/-- R339, R340: item (slot, wid) of launch k fails. -/
def State.failSlot (s : State) (k slot wid cause addr agent : Nat) : State :=
  State.failGo (s.listed + 1) s k slot wid cause addr agent

/-- R432: the items of records that the lists could not link fail. -/
def State.failRefused (r : State × List Refused) : State :=
  r.2.foldl (fun s e => match s.launch e.1.launch with
    | none => s
    | some l => s.failSlot e.1.launch (l.slotOf e.1.addr) (l.widAt (l.slotOf e.1.addr)) (recCause e.2.1) e.2.2 0xFFFD) r.1

/-- R278: list p of a cluster becomes l. -/
def State.setListOf (s : State) (cl p : Nat) (l : List Entry) : State := State.failRefused (s.setList cl p (l.length + 1) l)

/-- R279: the park list of a cluster becomes l. -/
def State.setParkedOf (s : State) (cl : Nat) (l : List Parked) : State := State.failRefused (s.setParked cl (l.length + 1) l)

/-- R341: the item of a record that is on no list has been killed. -/
def State.entryDead (s : State) (e : Entry) : Bool :=
  (s.launch e.launch).any fun l => l.live.any fun i => l.recAt i.slot == e.addr && l.dead i.wid

/-- R341, R353: the record of a killed item goes to no list: it is marked, and its slot is free. -/
def State.dropDead (s : State) (e : Entry) : State :=
  match s.launch e.launch with
  | none => s
  | some l => (s.markKilled l.vdev e).itemEnd e.launch (l.slotOf e.addr)

/-- R278: a record enters the tail of list p of a cluster; that of a killed item does not (R341). -/
def State.enqueue (s : State) (cl p : Nat) (e : Entry) : State :=
  if s.entryDead e then s.dropDead e else s.setListOf cl p ((s.cluster cl).lists.get [] p ++ [e])

/-- R341: a kill of launch k reaches its records. -/
def State.sweep (s : State) (k : Nat) : State := State.failRefused (s.sweepKilled k)

/-- R339: the item a context runs fails; the context releases the array and becomes idle. -/
def State.failItem (s : State) (n j cause addr : Nat) : State :=
  let h := (s.ctx n j).held
  let s := (s.register n j).updCore n fun c => c.depart n j
  match h with
  | none => s
  | some h =>
    match s.launch h.launch with
    | none => s
    | some l => s.failSlot h.launch (l.slotOf h.addr) h.wid cause addr (ctxNum n j)

end Sys2Proof.Machine
end

