-- ==== Sys2Proof/Machine/ArraySave.lean ====
section
/-! DEFINITION. Machine/ArraySave.lean: the array save area that arrsave and a heavy capture write, and what is loaded from
it (R224, R299). -/

namespace Sys2Proof.Machine

open Sys2Proof

/-- 20-bit fields packed into bytes, two to five bytes (R224). -/
def pack20 : List XF19 → List Byte
  | a :: b :: t => toBytes 5 (a.toNat + 2 ^ 20 * b.toNat) ++ pack20 t
  | [a] => toBytes 3 a.toNat
  | [] => []

/-- The fields of packed bytes. -/
def unpack20 : Nat → List Byte → List XF19
  | 0, _ => []
  | k + 1, bs =>
    let w := ofBytes (bs.take 5)
    BitVec.ofNat 19 w :: BitVec.ofNat 19 (w / 2 ^ 20) :: unpack20 k (bs.drop 5)

def rowsBytes (t : Tbl (List W32)) : List Byte :=
  (List.range 128).flatMap fun q => (t.get zeroRow q).flatMap fun w => toBytes 4 w.toNat

def xrowsBytes (t : Tbl (List XF19)) : List Byte := (List.range 128).flatMap fun k => pack20 (t.get zeroXRow k)

/-- A 64-bit tile-list entry (R224). -/
def Tile.word (t : Tile) : Nat :=
  b2n t.valid * 2 ^ 63 + b2n t.failed * 2 ^ 62 + b2n t.counted * 2 ^ 52 + t.gen % 16 * 2 ^ 48
    + t.length % 2 ^ 17 * 2 ^ 24 + t.offset % 2 ^ 21

/-- The 8-byte entries of a tile list, 16 of them. -/
def tilesBytes (l : List Tile) : List Byte :=
  (List.range 16).flatMap fun i => toBytes 8 ((l[i]?.map Tile.word).getD 0)

/-- The control fields at 0x34900 (R224). -/
def Core.controlFields (c : Core) : List Byte :=
  let own := match c.owner with
    | some k => k
    | none => 0xFFFF
  let pl := c.play
  let f := fun (g : Play → Nat) => (pl.map g).getD 0
  toBytes 1 c.arc ++ toBytes 1 c.brc ++ toBytes 2 own ++ toBytes 4 c.ahd ++ toBytes 4 c.atl ++ toBytes 4 c.bhd
    ++ toBytes 4 c.btl ++ toBytes 1 c.atiles.length ++ toBytes 1 c.btiles.length ++ toBytes 2 c.scales.length
    ++ toBytes 1 (b2n pl.isSome + 2 * b2n c.bscales.isSome) ++ toBytes 1 (f (·.start)) ++ toBytes 1 (f fun p => p.length - 1)
    ++ toBytes 1 (f (·.pos)) ++ toBytes 4 (f (·.iter)) ++ toBytes 4 (f (·.left)) ++ toBytes 1 c.brc ++ toBytes 27 0

/-- The array save area of R224. -/
def Core.arrayImage (c : Core) : List Byte :=
  rowsBytes c.acc0 ++ rowsBytes c.acc1 ++ xrowsBytes c.active ++ xrowsBytes c.shadow
    ++ (List.range 1024).flatMap (fun i => toBytes 2 ((c.scales[i]?.map (·.toNat)).getD 0))
    ++ (List.range 128).flatMap (fun i => toBytes 2 (((c.bscales.getD [])[i]?.map (·.toNat)).getD 0))
    ++ c.controlFields ++ tilesBytes c.atiles ++ tilesBytes c.btiles
    ++ (List.range 128).flatMap (fun i => toBytes 4 ((((c.play.map (·.entries)).getD [])[i]?.map (·.toNat)).getD 0))
    ++ List.replicate 960 0

/-- The pending scales of an ldsc enter before a save (R165, R224; log 99). -/
def Core.settleScales (c : Core) : Core :=
  { c with scales := c.scales ++ c.scalesIn.flatMap (·.2), scalesIn := [] }

/-- The array state written to the save area (R92, R347). -/
def Core.saveArray (c : Core) : Core :=
  let c := c.settleScales
  { c with pool := c.pool.writeN 0 c.arrayImage }

def rowsOf (bs : List Byte) : Tbl (List W32) :=
  tab 128 fun q => (q, tab 128 fun j => BitVec.ofNat 32 (ofBytes ((bs.drop (512 * q + 4 * j)).take 4)))

def xrowsOf (bs : List Byte) : Tbl (List XF19) :=
  tab 128 fun k => (k, unpack20 64 (bs.drop (320 * k)))

/-- A tile-list entry read back; a claimed tile that is neither valid nor failed still has its tld. -/
def tileOf (by_ slot w : Nat) : Tile :=
  let v := fld w 63 63 == 1
  let f := fld w 62 62 == 1
  ⟨v, f, fld w 52 52 == 1, fld w 51 48, fld w 40 24, fld w 20 0, slot % 16, !v && !f, 0, by_⟩

/-- The tiles of a list of a context, the head at ring position slot. -/
def tilesOf (by_ : Nat) (bs : List Byte) (n slot : Nat) : List Tile :=
  tab n fun i => tileOf by_ (slot + i) (ofBytes ((bs.drop (8 * i)).take 8))

/-- The valid bank with a tag (R126). -/
def DTable.hasTag (t : DTable) (gen : Nat) : Bool := (t.b0.valid && t.b0.tag == gen) || (t.b1.valid && t.b1.tag == gen)

/-- R126: a tile of a generation is counted for the context: in the bank of MCTL.BDT with that tag, while BENT = 1. -/
def Ctx.counts (x : Ctx) (gen : Nat) : Bool := bit x.mctl 31 && (x.dt.get DTable.reset (bits x.mctl 42 40)).hasTag gen

/-- R299: the in-flight counts recomputed from the tiles held, for the table MCTL.BDT while BENT = 1. -/
def Ctx.recount (x : Ctx) (brc : Nat) (tiles : List Tile) : Ctx :=
  let bdt := bits x.mctl 42 40
  let on := bit x.mctl 31
  let held := (tiles.zipIdx).filter fun t => t.1.valid && !t.1.failed
  let cnt := fun (tag : Nat) =>
    (held.map fun t => if t.1.gen == tag then 64 - (if t.2 == 0 then brc else 0) else 0).sum
  { x with dt := tab 8 fun k =>
      let t := x.dt.get DTable.reset k
      let f := fun (b : DBank) => { b with count := if on && k == bdt && b.valid then cnt b.tag else 0 }
      (k, { t with b0 := f t.b0, b1 := f t.b1 }) }

/-- R126, R299: context j's in-flight counts recomputed, and which of the tiles it holds are counted. -/
def Core.recount (c : Core) (j : Nat) (tiles : List Tile) : Core :=
  let x := c.ctx j
  { c.setCtx j (x.recount c.brc tiles) with
    btiles := tiles.map fun t => { t with counted := t.valid && !t.failed && x.counts t.gen } }

/-- The array state reloaded from save-area bytes, decoding to restart at segment BRC, whose first `replay` segments had been
decoded before (R92, R224, R321). -/
def Core.loadArray (c : Core) (bs : List Byte) (slot home replay : Nat) : Core :=
  let ctl := bs.drop 0x34900
  let num := fun (o n : Nat) => ofBytes ((ctl.drop o).take n)
  let own := num 2 2
  let nb := num 0x15 1
  let flags := num 0x18 1
  let len := num 0x1A 1 + 1
  let half := fun (o i : Nat) => BitVec.ofNat 16 (ofBytes ((bs.drop (o + 2 * i)).take 2))
  { c with
    acc0 := rowsOf bs, acc1 := rowsOf (bs.drop 0x10000), active := xrowsOf (bs.drop 0x20000),
    shadow := xrowsOf (bs.drop 0x2A000), arc := num 0 1 % 128, brc := num 1 1 % 64,
    owner := if own == 0xFFFF then none else some own, ahd := num 4 4 % 2 ^ 21, atl := num 8 4 % 2 ^ 21,
    bhd := num 12 4 % 2 ^ 21, btl := num 16 4 % 2 ^ 21, atiles := tilesOf (own % 4) (bs.drop 0x34940) (num 0x14 1) 0,
    btiles := tilesOf (own % 4) (bs.drop 0x349C0) nb slot, bslot := (slot + nb) % 16,
    scales := tab (num 0x16 2) (half 0x34000), scalesIn := [],
    bscales := if flags / 2 % 2 == 1 then some (tab 128 (half 0x34800)) else none,
    play := if flags % 2 == 1 then
        some ⟨own % 4, home, tab len fun i => BitVec.ofNat 32 (ofBytes ((bs.drop (0x34A40 + 4 * i)).take 4)),
          num 0x19 1, len, num 0x1B 1, num 0x1C 4, num 0x20 4⟩
      else none,
    fifo := [], fifoSegs := 0, replay := replay, malformed := none }

end Sys2Proof.Machine
end

