-- ==== Sys2Proof/Machine/Decoder.lean ====
section
/-! DEFINITION. Machine/Decoder.lean: canonical codes, coded segments and the decoded-symbol FIFO (R125-R128,
R295-R299), and the tiles of the rings as they become valid, fail and retire (R121, R163, R238, R317). -/

namespace Sys2Proof.Machine

open Sys2Proof

/-- Length of symbol x in a table of 16 four-bit lengths (R127). -/
def lenOf (lens x : Nat) : Nat := lens / 16 ^ x % 16

/-- R295: (length, code, symbol) of every symbol that has a code, in (length, symbol) order. -/
def canonical (lens : Nat) : List (Nat × Nat × Nat) :=
  ((List.range 15).foldl (fun (a : Nat × List (Nat × Nat × Nat)) i =>
    let l := i + 1
    let here := (List.range 16).filter fun x => lenOf lens x == l
    ((a.1 + here.length) * 2, a.2 ++ here.zipIdx.map fun x => (l, a.1 + x.2, x.1))) (0, [])).2

/-- The bits from p to the end begin some code longer than they are. -/
def beginsCode (codes : List (Nat × Nat × Nat)) (seg fin p : Nat) : Bool :=
  codes.any fun c => decide (fin - p < c.1) && c.2.1 / 2 ^ (c.1 - (fin - p)) == seg % 2 ^ (fin - p)

/-- R297: the symbol the bits from p begin with, its length; or the reason and bit of an error: bits that begin no code
(R295), or a code that runs past the end. l is the next length tried, f how many are left. -/
def matchCode (codes : List (Nat × Nat × Nat)) (seg fin p : Nat) : Nat → Nat → Except (Nat × Nat) (Nat × Nat)
  | 0, _ => .error (4, p)
  | f + 1, l =>
    if fin < p + l then .error (if beginsCode codes seg fin p then (5, fin) else (4, p))
    else match codes.find? (fun c => c.1 == l && c.2.1 == seg / 2 ^ (fin - p - l) % 2 ^ l) with
      | some c => .ok (c.2.2, l)
      | none => matchCode codes seg fin p f (l + 1)

/-- R297: k symbols from bit p, and the bit after the last. -/
def symbols (codes : List (Nat × Nat × Nat)) (seg fin : Nat) : Nat → Nat → Except (Nat × Nat) (List Nat × Nat)
  | 0, p => .ok ([], p)
  | k + 1, p => do
    let r ← matchCode codes seg fin p 15 1
    let t ← symbols codes seg fin k (p + r.2)
    pure (r.1 :: t.1, t.2)

/-- A segment's bytes as one number, the first byte's bit 7 highest (R296). -/
def beNat (bs : List Byte) : Nat := bs.foldl (fun a b => a * 256 + b.toNat) 0

/-- The position of the first one-bit of the padding from p. -/
def firstOne (seg fin : Nat) : Nat → Nat → Option Nat
  | 0, _ => none
  | k + 1, p => if p < fin && seg / 2 ^ (fin - 1 - p) % 2 == 1 then some p else firstOne seg fin k (p + 1)

/-- R297: one segment of a tile; the padding of the last segment of a tile of unknown LENGTH is not judged
(log 15). -/
def segment (bs : List Byte) (s gen : Nat) (lens : Option Nat) (known : Bool) : Except (Nat × Nat) (List Nat) :=
  let fin := 8 * bs.length
  let seg := beNat bs
  let b1 := (nth 0 bs 1).toNat
  if (nth 0 bs 0).toNat != 0xA5 then .error (1, 0)
  else match lens with
    | none => .error (2, 8)
    | some lens =>
      if b1 / 16 != gen then .error (2, 8)
      else if b1 % 16 != s % 16 then .error (3, 12)
      else do
        let r ← symbols (canonical lens) seg fin 256 16
        if !known then pure r.1
        else if 8 ≤ fin - r.2 then .error (7, r.2)
        else match firstOne seg fin 8 r.2 with
          | some p => .error (6, p)
          | none => pure r.1

/-- SEGOFF[s] of the tile's ring bytes (R237, R293). -/
def Core.segOff (c : Core) (t : Tile) (s : Nat) : Nat :=
  if s < 64 then ofBytes (c.ring true (t.offset + 2 * s) 2) else if t.coded == 0 then t.length - 128 else t.coded

/-- The bytes of segment s of a tile (R296). -/
def Core.segBytes (c : Core) (t : Tile) (s : Nat) : List Byte :=
  c.ring true (t.offset + 128 + c.segOff t s) (c.segOff t (s + 1) - c.segOff t s)

/-- R126: the generation in the segment 0 marker. -/
def Core.tileGen (c : Core) (t : Tile) : Nat := (nth 0 (c.ring true (t.offset + 128) 2) 1).toNat / 16

/-- The lengths of the valid bank with a tag (R126). -/
def DTable.lensOf (t : DTable) (gen : Nat) : Option Nat :=
  if t.b0.valid && t.b0.tag == gen then some t.b0.lens
  else if t.b1.valid && t.b1.tag == gen then some t.b1.lens else none

/-- R126: whether a bank is newer: its tag is (G - 1) mod 16. -/
def DTable.newer (t : DTable) : Option Bool :=
  if t.b0.valid && t.b0.tag == (t.g + 15) % 16 then some false
  else if t.b1.valid && t.b1.tag == (t.g + 15) % 16 then some true else none

/-- The segment the decoder reads next, counted from segment 0 of the head tile, and its tile (R125). -/
def Core.nextSeg (c : Core) : Option (Nat × Tile) :=
  let i := c.brc + c.fifoSegs
  match (c.btiles.filter fun t => !t.failed)[i / 64]? with
  | some t => if t.valid then some (i, t) else none
  | none => none

/-- R125: the decoder decodes one segment ahead, up to 1,024 symbols. -/
def Core.decodeNext (c : Core) : Core :=
  match c.decodes, c.nextSeg with
  | some j, some (i, t) =>
    let x := c.ctx j
    if !bit x.mctl 31 || c.malformed.isSome || decide (4 ≤ c.fifoSegs) then c
    else
      let s := i % 64
      let lens := (x.dt.get DTable.reset (bits x.mctl 42 40)).lensOf (c.tileGen t)
      match segment (c.segBytes t s) s (c.tileGen t) lens (s != 63 || t.coded != 0) with
      | .error e => { c with malformed := some ⟨i, e.1, e.2⟩ }
      | .ok syms =>
        let c := if c.fifoSegs < c.replay then c.setCtx j (x.count 0x10E 1) else c
        { c.count 0x123 256 with fifo := c.fifo ++ syms, fifoSegs := c.fifoSegs + 1 }
  | _, _ => c

/-- R129, R284: the symbols of segment BRC taken. -/
def Core.takeSymbols (c : Core) : Core :=
  { c with fifo := c.fifo.drop 256, fifoSegs := c.fifoSegs - 1, replay := c.replay - 1 }

/-- R284: the head tile retires with k segments left: their symbols are discarded. -/
def Core.discardSymbols (c : Core) (k : Nat) : Core :=
  { c with fifo := c.fifo.drop (256 * k), fifoSegs := c.fifoSegs - k, replay := c.replay - k,
           malformed := c.malformed.bind fun m => if m.seg < 64 then none else some { m with seg := m.seg - 64 } }

/-! ## Tiles retiring (R121, R238, R317) -/

/-- The failed tiles at the front of a list: their bytes, and the rest. -/
def skipFailed : List Tile → Nat × List Tile
  | [] => (0, [])
  | t :: ts => if t.failed then let r := skipFailed ts; (t.length + r.1, r.2) else (0, t :: ts)

/-- DPROG when the head B tile changes: RETIRED grows by k (R317). -/
def Core.newHead (c : Core) (j k : Nat) : Core :=
  let x := c.ctx j
  let ret := bits x.dprog 31 16 + k
  let d := match c.btiles with
    | t :: _ => dprogOf ret (if bit x.mctl 31 then t.gen else 0) 0 t.slot
    | [] => dprogOf ret 0 0 c.bslot
  c.setCtx j { x with dprog := d }

/-- The head A tile retires (R121). -/
def Core.retireA (c : Core) : Core :=
  match c.atiles with
  | [] => c
  | t :: ts =>
    let r := skipFailed ts
    { c with atiles := r.2, ahd := (c.ahd + t.length + r.1) % max c.half 1, arc := 0 }

/-- The head B tile of context j retires with `used` segments consumed (R121, R126). -/
def Core.retireB (c : Core) (j used : Nat) : Core :=
  match c.btiles with
  | [] => c
  | t :: ts =>
    let r := skipFailed ts
    let x := c.ctx j
    let c := c.setCtx j (if t.counted then x.bankAdj t.gen 0 (64 - used) else x)
    let c := c.discardSymbols (64 - used)
    ({ c with btiles := r.2, bhd := (c.bhd + t.length + r.1) % max c.half 1, brc := 0 }).newHead j 1

/-- R238: failed tiles at the front of a ring are skipped at once. -/
def Core.skip (c : Core) (j : Nat) : Core :=
  let a := skipFailed c.atiles
  let b := skipFailed c.btiles
  let c' := { c with
    atiles := a.2, ahd := (c.ahd + a.1) % max c.half 1, btiles := b.2, bhd := (c.bhd + b.1) % max c.half 1 }
  if b.1 == 0 then c' else c'.newHead j 0

/-! ## Tiles as their tld ends (R126, R163, R238) -/

/-- The tile of a ring with a claim at an offset whose tld is outstanding. -/
def setTile (off : Nat) (f : Tile → Tile) : List Tile → List Tile
  | [] => []
  | t :: ts => if t.prod && t.offset == off then f t :: ts else t :: setTile off f ts

def Core.updTile (c : Core) (b : Bool) (off : Nat) (f : Tile → Tile) : Core :=
  if b then { c with btiles := setTile off f c.btiles } else { c with atiles := setTile off f c.atiles }

/-- R163, R238: a failed ring tile leaves the ring. -/
def Core.tileFail (c : Core) (j : Nat) (b : Bool) (off : Nat) : Core :=
  (c.updTile b off fun t => { t with failed := true, prod := false }).skip j

/-- R126: a B tile becomes valid: its generation, and 64 more segments in its bank's in-flight count, where a bank has its
generation. -/
def Core.tileValid (c : Core) (j : Nat) (b : Bool) (off coded : Nat) : Core :=
  let x := c.ctx j
  let ent := b && bit x.mctl 31
  let first := match c.btiles with
    | t :: _ => t.offset == off
    | [] => false
  let gen := match c.btiles.find? (fun t => t.prod && t.offset == off) with
    | some t => if ent then c.tileGen t else 0
    | none => 0
  let counted := b && x.counts gen
  let c := c.updTile b off fun t => { t with valid := true, prod := false, gen := gen, counted := counted, coded := coded }
  let c := if ent then c.setCtx j (x.bankAdj gen 64 0) else c
  if b && first then c.newHead j 0 else c

/-- The tiles of a ring whose tld is outstanding, by ring and offset. -/
def Core.lateTiles (c : Core) : List Late :=
  let of_ := fun (b : Bool) (l : List Tile) => (l.filter (·.prod)).map fun t => (⟨b, t.offset, none⟩ : Late)
  of_ false c.atiles ++ of_ true c.btiles

/-- R224: a tile whose tld completed behind an array save takes its outcome after the reload, for the context that owns the
array. -/
def Core.settleLate (j : Nat) (c : Core) (l : Late) : Core :=
  match l.done with
  | none => c
  | some true => c.tileFail j l.ringB l.off
  | some false =>
    let t := (if l.ringB then c.btiles else c.atiles).find? fun t => t.prod && t.offset == l.off
    c.tileValid j l.ringB l.off ((t.map (·.coded)).getD 0)

/-! ## The array of a handler (R92, R397) -/

/-- R116, R92: the array belongs to a handler of context j. -/
def Core.handlerOwns (c : Core) (j : Nat) : Bool :=
  match c.saved with
  | a :: _ => a.by_ == j && c.owner.any fun k => k % 4 == j
  | [] => false

/-- R92: arrsave by a handler of context j: whether it wrote the state, and the core; the decoder stops ahead of what it
saved. A save of another context's handler stays beneath (log 47). -/
def Core.arrsave (c : Core) (n j : Nat) : Core × Bool :=
  if c.handlerOwns j then (c, false)
  else
    let tag : ArrSaved := ⟨j, (c.ctx j).depth, (c.play.map (·.home)).getD 0, c.owner, c.btiles.map (·.coded),
      max c.replay c.fifoSegs, c.lateTiles⟩
    match c.owner with
    | none => ({ c with saved := tag :: c.saved, owner := some (ctxNum n j) }, false)
    | some _ =>
      let c := c.saveArray
      ({ c.clearFifo with saved := tag :: c.saved, owner := some (ctxNum n j), play := none, replay := 0 }, true)

/-- R92: arrrest in the handler that saved: whether it reloaded, and the core; ring tlds of the handler reach no ring bytes any
more (R245). -/
def Core.arrrest (c : Core) (j : Nat) : Core × Bool :=
  match c.saved with
  | [] => (c, false)
  | a :: rest =>
    if a.by_ != j || a.depth != (c.ctx j).depth then (c, false)
    else match a.owner with
      | none => ({ c with saved := rest, owner := none }, false)
      | some k =>
        let slot := bits (c.ctx (k % 4)).dprog 3 0
        let x := c.ctx j
        let c := c.setCtx j { x with prods := x.prods.map fun p => if p.depth == a.depth then p.unland else p }
        let c := c.loadArray (c.pool.readN 0 0x35000) slot a.home a.segs
        let c := { c with
          saved := rest, owner := some k,
          btiles := c.btiles.zipIdx.map fun t => { t.1 with coded := nth 0 a.coded t.2 } }
        (a.late.foldl (Core.settleLate (k % 4)) c, true)

end Sys2Proof.Machine
end

