-- ==== Sys2Proof/Machine/Ops.lean ====
section
/-! DEFINITION. Machine/Ops.lean: taking a supervisor trap or a user-level interrupt and returning from one
(R383-R394), stalls, and the form every slot's meaning takes. -/

namespace Sys2Proof.Machine

open Sys2Proof

/-! ## Images of the frame and the save area (R208, R387) -/

/-- R210: CSTAT of context j of core n. -/
def State.cstatOf (s : State) (n : Nat) (c : Core) (j : Nat) : Word :=
  let x := c.ctx j
  BitVec.ofNat 64 (b2n x.ev + x.nxp % 4 * 4 + x.level * 16 + b2n x.uih * 32 + b2n (x.upend != 0) * 64
    + b2n x.preq * 128 + b2n (c.owner == some (ctxNum n j)) * 256 + ctxNum n j * 2 ^ 18 + s.vdevOf n * 2 ^ 29)

/-- Codes 48 to 55 name no register (R44). -/
def tapCode (c : Nat) : Bool := decide (48 ≤ c ∧ c < 56)

/-- 64 S registers, the originals. -/
def Ctx.sImage (x : Ctx) : List Byte :=
  (List.range 64).flatMap fun c => toBytes 8 (if tapCode c || c == 0 then 0 else (x.s.get 0 c).toNat)

def FE.code : FE → Nat
  | .full => 0 | .empty => 1 | .faulted => 2

/-- R208: two bits per code. -/
def Ctx.feImage (x : Ctx) : List Byte :=
  toBytes 16 (((List.range 64).map fun c =>
    if tapCode c || c == 0 then 0 else (x.fe.get .full c).code * 4 ^ c).sum)

def Ctx.bImage (x : Ctx) : List Byte := (List.range 8).flatMap fun n => toBytes 8 (x.b.get 0 n).toNat

/-- The x0 and x1 rings, depth 0 first. -/
def Ctx.xImage (x : Ctx) : List Byte :=
  ((List.range 4).flatMap fun d => toBytes 8 (nth 0 x.x0 d).toNat)
    ++ (List.range 4).flatMap fun d => toBytes 8 (nth 0 x.x1 d).toNat

/-- R387: 16 entries of the map store. -/
def Ctx.mapImage (x : Ctx) : List Byte :=
  (List.range 16).flatMap fun i => (x.maps[i]?.map mapBytes).getD (List.replicate 24 0)

/-! ## Capture entries (R388) -/

/-- The UNIT codes of captured landings. -/
def LUnit.code : LUnit → Option Nat
  | .x0 => some 0 | .x1 => some 1 | .lds => some 2 | .nxt => some 3 | .btarget => some 4 | .crd => some 5
  | .md => some 6 | .y0 | .y1 | .ld | .cbget | .beat => none

def LUnit.ofCode : Nat → LUnit
  | 0 => .x0 | 1 => .x1 | 2 => .lds | 3 => .nxt | 4 => .btarget | 5 => .crd | _ => .md

/-- R207: the S-wide landings. -/
def LUnit.sWide (u : LUnit) : Bool := u != .md && u.code.isSome

def Dest.code : Dest → Nat
  | .none => 0 | .s c => c | .p n => 64 + n | .b n => n | .v n => n

/-- A 16-byte capture entry (R388); an mdrain with no register has DEST 31. -/
def capBytes (order : Nat) (value : Nat) (f : Flight) : List Byte :=
  let dst := if f.unit == .md && f.dest == .none then 31 else f.dest.code
  toBytes 8 value ++ toBytes 1 (f.unit.code.getD 0) ++ toBytes 1 dst ++ toBytes 1 f.rem
    ++ toBytes 1 (f.flags.toNat + b2n f.toM * 32 + 128) ++ toBytes 1 order ++ toBytes 1 f.slot ++ toBytes 2 0

/-- The landing a valid capture entry describes, owed by code at the given depth. -/
def capFlight (home : Nat) (uih : Bool) (payload : Nat → Lanes) (bs : List Byte) : Option Flight :=
  let b := fun (i : Nat) => (nth 0 bs i).toNat
  let v := ofBytes (bs.take 8)
  let u := LUnit.ofCode (b 8)
  let d := b 9
  let dest : Dest :=
    if u == .md then (if d == 31 then .none else .v (d % 16))
    else if u == .btarget then .b (d % 8)
    else if d / 64 % 2 == 1 then .p (d % 8)
    else if d % 64 == 0 then .none else .s (d % 64)
  let sh := match dest with
    | .s c => uih && decide (60 ≤ c)
    | _ => false
  if b 11 / 128 == 0 then none
  else some ⟨u, dest, if u == .md then 0 else BitVec.ofNat 64 v, if u == .md then payload (v % 4) else [], b 10,
    BitVec.ofNat 5 (b 11), b 11 / 32 % 2 == 1, b 13, home, sh, .none⟩

/-- A table of 48 capture entries. -/
def capTable (fs : List Flight) : List Byte :=
  (fs.zipIdx.flatMap fun f => capBytes f.2 f.1.val.toNat f.1) ++ List.replicate (16 * (48 - fs.length)) 0

/-- A landing enters a list in ascending order of its key, after those of the same key. -/
def insertFlight (k : Nat) (f : Flight) : List (Nat × Flight) → List (Nat × Flight)
  | [] => [(k, f)]
  | e :: t => if k < e.1 then (k, f) :: e :: t else e :: insertFlight k f t

/-- The landings of n capture entries, in ORDER, then in SLOT order (R390). -/
def capFlights (home : Nat) (uih : Bool) (payload : Nat → Lanes) (bs : List Byte) (n : Nat) : List Flight :=
  let entry := fun (i : Nat) => (bs.drop (16 * i)).take 16
  let fs := (List.range n).filterMap fun i => (capFlight home uih payload (entry i)).map fun f =>
    ((nth 0 (entry i) 12).toNat * 256 + f.slot, f)
  (fs.foldl (fun l f => insertFlight f.1 f.2 l) []).map (·.2)

/-! ## DFAULT (R212, R380) -/

/-- DFAULT0 as a fault writes it. -/
def dfault0 (old : Word) (cause : Nat) (d : DFault) : Nat :=
  2 ^ 63 + b2n (bit old 63 || bit old 62) * 2 ^ 62 + cause * 2 ^ 48 + d.file * 2 ^ 40 + d.reg * 2 ^ 32 + d.info % 2 ^ 32

/-- The record of a fault and the map entry it frees (R212, R389); a store fault is raised once (R380). -/
def Ctx.raise (x : Ctx) (r : Raise) : Ctx :=
  let x := match r.df with
    | none => x
    | some d => { x with dfault := [(0, BitVec.ofNat 64 (dfault0 (x.dfault.get 0 0) r.cause d)), (1, BitVec.ofNat 64 d.addr),
        (2, BitVec.ofNat 64 d.map2), (3, BitVec.ofNat 64 d.map3)] }
  let x := if r.cause == 0x11 then { x with storeFault := none } else x
  match r.mapOf with
  | none => x
  | some c =>
    if x.shadowed c && x.feS c == .faulted then { x with shmaps := x.shmaps.filter fun m => m.1 != c }
    else { x with maps := x.maps.filter fun m => m.1 != c }

/-! ## Frames (R386, R387) -/

/-- The frame of a trap (R387): `outer` holds the four registers of the outer trap. -/
def frameImage (x : Ctx) (cstat tcause tinfo : Word) (ret : Nat) (caps : List Flight) (outer : List Word) : List Byte :=
  toBytes 8 tcause.toNat ++ toBytes 8 tinfo.toNat ++ toBytes 8 ret ++ toBytes 8 cstat.toNat ++ toBytes 1 caps.length
    ++ toBytes 31 0 ++ x.sImage ++ x.feImage ++ toBytes 1 (x.p % 256 + (1 - x.p % 2)) ++ toBytes 15 0 ++ x.bImage
    ++ x.xImage ++ capTable caps ++ x.mapImage ++ outer.flatMap (fun w => toBytes 8 w.toNat) ++ toBytes 128 0

/-- R225, R218: the device address of a backing byte. -/
def Core.apertureVa (c : Core) (off : Nat) : Nat := bits c.lwbase 51 21 * 2 ^ 21 + 2 ^ 21 + off

/-- R383, R385, R388: the landings of the interrupted level are withheld: the S-wide ones for the frame,
the others frozen at the outermost entry and performed at a nested one. -/
def Core.capture (c : Core) (j : Nat) : Core × List Flight :=
  let x := c.ctx j
  let mine := fun (f : Flight) => f.home == x.depth
  let caps := x.flights.filter fun f => mine f && f.unit.sWide
  let c := c.setCtx j { x with flights := x.flights.filter fun f => !(mine f && f.unit.sWide) }
  if x.depth == 0 then (c, caps) else (c.landIf j mine, caps)

/-- R339: causes whose fault leaves an address in DFAULT1 (R379). -/
def hasAddress (cause : Nat) : Bool := [0x03, 0x07, 0x0C, 0x0D, 0x0E, 0x0F, 0x10, 0x11, 0x20, 0x21].contains cause

/-- The address a failed item's LOG entry gives for a trap: that in its DFAULT1, or the return address where the cause leaves
none there (R339, log 14). -/
def Raise.addr (r : Raise) (ret : Nat) : Nat := if hasAddress r.cause then (r.df.map (·.addr)).getD ret else ret

/-- R383: a supervisor trap of context j of core n is taken, ret being its return address. -/
def State.takeTrap (s : State) (n j : Nat) (r : Raise) (ret : Nat) : State :=
  let s := s.updCtx n j fun x => x.raise r
  let s := if r.play then s.updCore n fun c => { c with play := none } else s
  let x := s.ctx n j
  let k := x.depth
  let at_ := frameAt j k
  if (s.core n).b0 * Config.unitBytes < at_ + frameBytes then s.failItem n j 0x13 (r.addr ret)
  else
    let tcause := BitVec.ofNat 64 (r.code % 65536 * 2 ^ 48 + r.cause)
    let tinfo := if r.cause == 0x20 || r.cause == 0x21 then x.dfault.get 0 0 else BitVec.ofNat 64 r.tinfo
    let outer := if x.level == 1 then [x.tcause, x.tinfo, x.trappc, x.tfbase] else [0, 0, 0, 0]
    let cap := (s.core n).capture j
    let img := frameImage x (s.cstatOf n (s.core n) j) tcause tinfo ret cap.2 outer
    let c := { cap.1 with pool := cap.1.pool.writeN at_ img }
    let c := c.dropFifo j
    let y := c.ctx j
    let y := { y with
      tcause := tcause, tinfo := tinfo, trappc := BitVec.ofNat 64 (ret / 4 * 4),
      tfbase := BitVec.ofNat 64 (c.apertureVa at_), level := 1, prep := [], fe := [], shfe := [], maps := [],
      shmaps := [],
      depth := k + 1, wide1 := if k == 0 then [] else y.wide1, stall := none, waiting := false, pend := .none,
      pc := c.tvec.toNat / 256 * 256,
      kept := if y.uih then ⟨k, y.sh, y.shfe, y.shmaps⟩ :: y.kept else y.kept,
      prods := y.prods.map fun p => if p.target == 0 then { p with target := k + 1 } else p }
    let s := s.setCore n (c.setCtx j y)
    if c.tvec.toNat / 256 == 0 then s.failItem n j r.cause (r.addr ret) else s

/-- R286, R394: a user-level interrupt is taken, ret being the next bundle. The shadow starts as the originals, with
their fault maps while the store has room (R204, R389; log 44). DESIGN CHOICE (log 117): the frame's TCAUSE and TINFO are 0, the
interrupt having no cause code. -/
def State.takeUser (s : State) (n j ret : Nat) : State :=
  let x := s.ctx n j
  let at_ := frameAt j 0
  let cap := (s.core n).capture j
  let img := frameImage x (s.cstatOf n (s.core n) j) 0 0 ret cap.2 [0, 0, 0, 0]
  let c := { cap.1 with pool := cap.1.pool.writeN at_ img }
  let y := c.ctx j
  let hi := [60, 61, 62, 63]
  s.setCore n (c.setCtx j { y with
    upend := y.upend - 1, uih := true, uipc := BitVec.ofNat 64 (ret / 4 * 4), depth := 1, wide1 := [],
    sh := hi.map fun c => (c, y.s.get 0 c), shfe := hi.map fun c => (c, y.fe.get .full c),
    shmaps := (y.maps.filter fun m => decide (60 ≤ m.1)).take (16 - y.maps.length),
    stall := none, waiting := false, pc := y.uivec.toNat / 4 * 4 })

/-! ## Returning (R89, R90, R392, R394) -/

/-- Bytes of a frame with the reti bundle's own stores undone (R392). -/
def overlay (undo : List Host.Cell) (base : Nat) (bs : List Byte) : List Byte :=
  bs.zipIdx.map fun b => ((undo.find? fun c => c.1 == base + b.2).map (·.2)).getD b.1

/-- Full/empty states read back (R208). DESIGN CHOICE (log 111): the code 0b11, which is never written, reads as full. -/
def feOf (bs : List Byte) (c : Nat) : FE :=
  match (nth 0 bs (c / 4)).toNat / 4 ^ (c % 4) % 4 with
  | 1 => .empty | 2 => .faulted | _ => .full

def wordAt (bs : List Byte) (o : Nat) : Word := BitVec.ofNat 64 (ofBytes ((bs.drop o).take 8))

/-- The S file of an image: values, and states of codes that are not full. -/
def sOf (bs : List Byte) : Tbl Word := (List.range 64).filterMap fun c =>
  if c == 0 || tapCode c then none else some (c, wordAt bs (8 * c))
def fesOf (bs : List Byte) : Tbl FE := (List.range 64).filterMap fun c =>
  if c == 0 || tapCode c || feOf bs c == .full then none else some (c, feOf bs c)

def wordsOf (bs : List Byte) (n : Nat) : List Word := tab n fun i => wordAt bs (8 * i)
def mapsOf (bs : List Byte) : List (Nat × Nat) := (List.range 16).filterMap fun i =>
  let e := bs.drop (24 * i)
  if (nth 0 e 1).toNat % 2 == 1 then some ((nth 0 e 0).toNat, ofBytes ((e.drop 8).take 16)) else none

/-- Bits h to l of v, in place. -/
def keep (v : Word) (h l : Nat) : Word := BitVec.ofNat 64 (bits v h l * 2 ^ l)

/-- A return discards the handler's landings and goes back to depth k (R89 step 2). -/
def Ctx.unwind (x : Ctx) (k : Nat) : Ctx :=
  { x with flights := x.flights.filter fun f => f.home != x.depth, depth := k, prep := [], pend := .none }

/-- R89 step 4: the interrupted context restored from its frame's bytes, reserved bits reading 0 (R5), and the shadow of a
user-level handler as the trap found it (log 44). -/
def Ctx.restore (x : Ctx) (k : Nat) (f : List Byte) : Ctx :=
  let cst := wordAt f 0x18
  let uih := bit cst 5
  let nested := bit cst 4
  let caps := capFlights k uih (fun _ => []) (f.drop 0x2E0) (min 48 (nth 0 f 0x20).toNat)
  let outer := f.drop 0x760
  let back := decide (k != 0)
  let mine := x.kept.find? fun h => h.depth == k
  { x with
    sh := (mine.map (·.s)).getD x.sh, shfe := (mine.map (·.fe)).getD x.shfe, shmaps := (mine.map (·.maps)).getD x.shmaps,
    kept := x.kept.filter fun h => decide (h.depth < k),
    level := if nested then 1 else 0, uih := uih, pc := (wordAt f 0x10).toNat / 4 * 4,
    s := sOf (f.drop 0x40), fe := fesOf (f.drop 0x240), p := (nth 0 f 0x250).toNat / 2 * 2 + 1,
    b := (wordsOf (f.drop 0x260) 8).zipIdx.map fun w => (w.2, w.1),
    x0 := wordsOf (f.drop 0x2A0) 4, x1 := wordsOf (f.drop 0x2C0) 4, maps := mapsOf (f.drop 0x5E0),
    flights := x.flights ++ caps,
    prods := x.prods.map (fun p => if p.target == k + 1 then { p with target := 0 } else p),
    tcause := if back then keep (wordAt outer 0) 63 48 ||| keep (wordAt outer 0) 7 0 else x.tcause, tinfo := if back then wordAt outer 8 else x.tinfo,
    trappc := if back then keep (wordAt outer 16) 63 2 else x.trappc, tfbase := if back then wordAt outer 24 else x.tfbase }

/-- A handler's variable producers are still outstanding (R89 step 1). -/
def Ctx.owes (x : Ctx) : Bool := x.prods.any fun p => p.target == 0 && p.depth == x.depth

/-- R89: a supervisor return, its producers complete; the next bundle issues 432 cycles later when arrrest reloads (R92). -/
def State.retiNow (s : State) (n j : Nat) (undo : List Host.Cell) : State :=
  let ar := (s.core n).arrrest j
  let c := ar.1
  let x := c.ctx j
  let k := x.depth - 1
  let at_ := frameAt j k
  let f := overlay undo at_ (c.pool.readN at_ frameBytes)
  let s := s.setCore n ((c.setCtx j ((x.unwind k).restore k f)).forget j x.depth)
  if ar.2 then s.memCycles n j 431 else s

/-- R90, R394: a return from a user-level handler; a play it left open goes on with the code returned to. -/
def State.uretNow (s : State) (n j : Nat) (undo : List Host.Cell) : State :=
  let c := s.core n
  let x := c.ctx j
  let at_ := frameAt j 0
  let f := overlay undo at_ (c.pool.readN at_ frameBytes)
  let caps := capFlights 0 false (fun _ => []) (f.drop 0x2E0) (min 48 (nth 0 f 0x20).toNat)
  let y := x.unwind 0
  let s := s.updCore n fun c => { c with
    play := c.play.map fun (p : Play) => if p.ctx == j then { p with home := 0 } else p }
  s.setCtx n j { y with
    uih := false, shmaps := [], pc := y.uipc.toNat / 4 * 4, x0 := wordsOf (f.drop 0x2A0) 4, x1 := wordsOf (f.drop 0x2C0) 4,
    flights := y.flights ++ caps }

/-! ## The form of a slot's meaning -/

/-- R143, R402: a trap waits until no port-unit operation of the context, as it stood before the bundle, runs. -/
def State.delayed (s : State) (v : Void) : Void :=
  match v with
  | .trap _ => if (s.issue.before.getD s.mycore).unitBusy s.j then .stall .unit else v
  | _ => v

/-- A bundle has no effect: the trap is taken at its address, or its context stalls (R6, R380). -/
def State.void (s : State) (v0 : Void) : State :=
  let v := s.delayed v0
  let t := match v with
    | .trap r => s.takeTrap s.cur s.j r s.issue.addr
    | .stall c => s.updMe fun x => { x with stall := some c }
    | .claim b len coded => s.updMe fun x => { x with stall := some .ring, claimWait := some (b, len, coded) }
    | .fetch => s
  { t with issue := { t.issue with void := some v } }

/-- The outcome of a slot: its effect, or the reason the bundle is void. -/
def slot (s : State) (r : Except Void State) : Host.Outcome State Fault Refusal :=
  match r with
  | .ok t => .next t
  | .error v => .next (s.void v)

/-- A check that voids the bundle. -/
def need (b : Bool) (v : Void) : Except Void Unit := if b then .ok () else .error v

/-- R157: a pending store fault is raised by an ordering bundle. -/
def Ctx.storeRaise (x : Ctx) : Except Void Unit :=
  match x.storeFault with
  | none => .ok ()
  | some f => .error (.trap ⟨0x11, 0, 0, some ⟨3, 0, f.cause, f.addr, f.bundle, 0⟩, none, false⟩)

/-- R157: the check an ordering slot makes first. DESIGN CHOICE (log 109): an ordering bundle of a handler raises the store fault
of the code interrupted too. -/
def State.ordering (s : State) : Except Void Unit := s.rd.storeRaise

/-- R4, R66: a privileged slot at user level. -/
def State.privileged (s : State) (info : Nat) : Except Void Unit := need (s.rd.level == 1) (fault 0x02 info)

/-! ## Scratchpad accesses of a bundle (R150, R155, R229) -/

/-- The region of a pool unit: 0 backing, 1 scratchpad, 2 L1, 3 rings (R223). -/
def regionOf (b0 b1 b2 u : Nat) : Nat := if u < b0 then 0 else if u < b1 then 1 else if u < b2 then 2 else 3

/-- R93, R229: a pool byte range touches a unit in transition. -/
def Core.changing (c : Core) (off n : Nat) : Bool :=
  match c.setpool with
  | none => false
  | some p => (List.range ((off + n + 8191) / 8192 - off / 8192)).any fun i =>
      let u := off / 8192 + i
      regionOf c.b0 c.b1 c.b2 u != regionOf p.b0 p.b1 p.b2 u

/-- R229, R247: a scratchpad range touches a unit in transition, or one that a running setpool brings into the
scratchpad. -/
def Core.scrChanging (c : Core) (a n : Nat) : Bool :=
  match c.setpool with
  | none => false
  | some p => decide (a + n ≤ max c.spsz ((p.b1 - p.b0) * Config.unitBytes)) && c.changing (c.b0 * Config.unitBytes + a) n

/-- R150: a scratchpad address: aligned, inside the region, and not in transition. -/
def State.scrOk (s : State) (a n align : Nat) : Except Void Unit := do
  let c := s.mycore
  need (a % align == 0) (faultAt 0x0D 0 0 a)
  need (!c.scrChanging a n) (.stall .mem)
  need (decide (a + n ≤ c.spsz)) (faultAt 0x0D 0 0 a)

/-- R155: a C slot reads the scratchpad as it was before its bundle. -/
def State.scrOld (s : State) (a n : Nat) : List Byte := (s.issue.before.getD s.mycore).scr a n

/-- The engine-command fault of the slot being run (R379). -/
def State.engineFault (s : State) (operand : Nat) : Void := faultAt 0x0F s.issue.pos 0 operand

/-! ## The local window (R225-R227) -/

/-- The parts of the address space a core's access sees. -/
inductive Part where
  | mem | scr | back | hole
  deriving DecidableEq, Repr

def Core.winBase (c : Core) : Nat := bits c.lwbase 51 21 * 2 ^ 21

/-- The part that holds an address, and the address one past that part. -/
def Core.part (c : Core) (va : Nat) : Part × Nat :=
  let b := c.winBase
  if !bit c.lwbase 0 then (.mem, 2 ^ 65)
  else if va < b then (.mem, b)
  else if va < b + c.spsz then (.scr, b + c.spsz)
  else if va < b + 2 ^ 21 then (.hole, b + 2 ^ 21)
  else if va < b + 2 ^ 21 + c.b0 * Config.unitBytes then (.back, b + 2 ^ 21 + c.b0 * Config.unitBytes)
  else if va < b + 2 ^ 22 then (.hole, b + 2 ^ 22)
  else (.mem, 2 ^ 65)

/-- Where an access goes: device memory, a pool byte, or an error response at the byte named. -/
inductive Target where
  | mem
  | pool (off : Nat)
  | err (at_ : Nat)
  deriving DecidableEq, Repr

/-- R226, R227: n bytes from va at a level. -/
def Core.target (c : Core) (level va n : Nat) : Target :=
  let p := c.part va
  match p.1 with
  | .hole => .err va
  | .mem => if p.2 < va + n then .err p.2 else .mem
  | .scr => if p.2 < va + n then .err p.2 else .pool (c.b0 * Config.unitBytes + (va - c.winBase))
  | .back =>
    if level == 0 then .err va
    else if p.2 < va + n then .err p.2
    else .pool (va - c.winBase - 2 ^ 21)

/-- R93, R229: an access through the window touches a unit in transition, or one that a running setpool brings into its
part. -/
def Core.windowChanging (c : Core) (level va n : Nat) : Bool :=
  let off := va - c.winBase
  let back := off - 2 ^ 21
  bit c.lwbase 0 && decide (c.winBase ≤ va ∧ off + n ≤ 2 ^ 22) &&
    (if off < 2 ^ 21 then c.scrChanging off n
      else level != 0 && c.setpool.any fun p =>
        c.changing back n && decide (back + n ≤ max c.b0 p.b0 * Config.unitBytes))

end Sys2Proof.Machine
end

