-- ==== Sys2Proof/Machine/Pages.lean ====
section
/-! DEFINITION. Machine/Pages.lean: page walks, migration, the expert-prefetch hints, chunks and extents
(R253-R256, R265-R268, R287, R304-R306), and the error log of a Pier die (R427). -/

namespace Sys2Proof.Machine

open Sys2Proof

/-! ## Error log (R427) -/

/-- An entry in the error log of a Pier die: a code and a value (log 4). -/
def State.errorLog (s : State) (p code value : Nat) : State :=
  s.updPier p fun d =>
    let i := if d.log.isEmpty then 0 else (d.logHead + 1) % 64
    { d with log := d.log.set i (code, value), logHead := i, logCount := min (2 ^ 32 - 1) (d.logCount + 1) }

/-! ## Leaf entries of a virtual device -/

/-- The entries of a table that are not zero: index and entry. -/
def State.entriesAt (s : State) (base n : Nat) : List (Nat × Nat) :=
  let is := (s.mem.cells.filter fun c => decide (base ≤ c.1 ∧ c.1 < base + 8 * n)).map fun c => (c.1 - base) / 8
  is.eraseDups.map fun i => (i, s.mem.num (base + 8 * i) 8)

/-- The leaves below a table that translate (R264): virtual address, address of the entry, entry, lowest bit of its page's
number. -/
def State.leavesFrom (s : State) : List (Nat × Nat × Bool) → Nat → Nat → List (Nat × Nat × Nat × Nat)
  | [], _, _ => []
  | (lo, nb, leafOk) :: rest, base, va =>
    (s.entriesAt base (2 ^ nb)).flatMap fun e =>
      let va' := va + e.1 * 2 ^ lo
      if s.entryLost (base + 8 * e.1) || e.2 % 2 == 0 || fld e.2 63 52 != 0 || fld e.2 6 6 != 0 then []
      else if fld e.2 1 1 == 1 then
        if !leafOk || s.leafBad lo e.2 then [] else [(va', base + 8 * e.1, e.2, lo)]
      else s.leavesFrom rest (fld e.2 51 12 * 4096) va'

/-- A page of some virtual device. -/
structure PageAt where
  vdev : Nat
  va : Nat
  entry : Nat
  pte : Nat
  size : Nat

def PageAt.frame (p : PageAt) : Nat := fld p.pte 51 12 * 4096
def PageAt.tier (p : PageAt) : Nat := fld p.pte 10 9
def PageAt.moving (p : PageAt) : Bool := fld p.pte 11 11 == 1

/-- Every page that some virtual device maps. -/
def State.leaves (s : State) : List PageAt :=
  s.vdevs.flatMap fun d =>
    if !bit d.2.ptbase 0 then []
    else (s.leavesFrom levels (bits d.2.ptbase 51 16 * 65536) 0).map fun l => ⟨d.1, l.1, l.2.1, l.2.2.1, 2 ^ l.2.2.2⟩

/-- The pages that may migrate: those of 64 KB (R267). -/
def State.pages (s : State) : List PageAt := s.leaves.filter fun p => p.size == 65536

/-! ## Pins (R266) -/

/-- A written byte of the frame sits in some L1. -/
def State.l1Holds (s : State) (frame : Nat) : Bool :=
  s.cores.any fun c => c.2.l1.any fun l =>
    decide (frame ≤ l.pa * 512 ∧ l.pa * 512 < frame + 65536) && l.bytes.any fun b => b.2.written

def State.pinned (s : State) (frame : Nat) : Bool := s.pins.get 0 (frame / 65536) != 0 || s.l1Holds frame

/-- The frames of an access. -/
def framesOf (pa n : Nat) : List Nat := (List.range ((pa + n + 65535) / 65536 - pa / 65536)).map (pa / 65536 + ·)

def State.pin (s : State) (fs : List Nat) : State :=
  { s with pins := fs.foldl (fun t f => t.set f (t.get 0 f + 1)) s.pins }
def State.unpin (s : State) (fs : List Nat) : State :=
  { s with pins := fs.foldl (fun t f => t.set f (t.get 0 f - 1)) s.pins }

/-! ## TLB invalidation (R94) -/

/-- The entries a predicate picks leave every micro-TLB, cluster TLB and walker cache. -/
def State.tlbDrop (s : State) (p : TlbEntry → Bool) : State :=
  let keep := fun (l : List TlbEntry) => l.filter fun e => !p e
  { s with
    cores := s.cores.mapVals fun _ c => { c with utlb := keep c.utlb },
    clusters := s.clusters.mapVals fun _ c => { c with ctlb := keep c.ctlb },
    piers := s.piers.mapVals fun _ d => { d with wcache := keep d.wcache } }

/-- R94: entries of a virtual device that cover an address. -/
def covers (v va : Nat) (e : TlbEntry) : Bool := e.vdev == v && decide (e.va ≤ va ∧ va < e.va + e.size)

/-! ## Migration (R267, R268) -/

/-- R268 step 1. -/
def State.migStart (s : State) (p : PageAt) (new tier : Nat) : State :=
  let s := { s.hwWrite p.entry (toBytes 8 (p.pte - fld p.pte 11 11 * 2 ^ 11 + 2 ^ 11)) with
    migrations := s.migrations ++ [(⟨p.vdev, p.entry, p.va, p.frame, new, tier, tier != 0⟩ : Migration)] }
  s.tlbDrop (covers p.vdev p.va)

/-- R268 step 3: the lines of a frame leave L1, L2 and the MSC, dirty ones to their tier. -/
def State.flushFrame (s : State) (frame : Nat) : State :=
  let here := fun (pa : Nat) => decide (frame ≤ pa * 512 ∧ pa * 512 < frame + 65536)
  let ls := (s.l2 ++ s.msc).filter fun l => here l.pa
  let s := { s with
    l2 := s.l2.filter (fun l => !here l.pa), msc := s.msc.filter (fun l => !here l.pa),
    cores := s.cores.mapVals fun _ c => { c with l1 := c.l1.filter fun l => !here l.pa } }
  ls.foldl (fun s l => s.toTier l) s

/-- The chunks of a frame's lines go back to their free lists. -/
def State.freeChunks (s : State) (frame : Nat) : State :=
  let mine := s.chunkOf.filter fun e => decide (frame ≤ e.1 * 512 ∧ e.1 * 512 < frame + 65536)
  let s := mine.foldl (fun s e => s.updPier (homePier (e.1 * 512)) fun d => { d with free := e.2 ++ d.free }) s
  { s with chunkOf := s.chunkOf.filter fun e => !decide (frame ≤ e.1 * 512 ∧ e.1 * 512 < frame + 65536) }

/-- Where a physical address lies once a frame has moved. -/
def movedTo (old new a : Nat) : Nat := if decide (old ≤ a ∧ a < old + 65536) then new + (a - old) else a

/-- Where what a waiting write of hardware keeps by physical address lies once a frame has moved. -/
def HwWait.moved (old new : Nat) (w : HwWait) : HwWait :=
  match w.op with
  | .arm h => { w with op := .arm { h with va := movedTo old new h.va } }
  | _ => w

/-- R256: the sectors of a frame that no memory holds. -/
def State.goneSectors (s : State) (frame : Nat) : List Nat :=
  if s.gone frame 65536 then ((List.range 512).map (frame / 128 + ·)).filter fun x => s.gone (x * 128) 128 else []

/-- An address lies in a frame. -/
def inFrame (frame a : Nat) : Bool := decide (frame ≤ a ∧ a < frame + 65536)

/-- R268 step 4: the bytes, their poison and their errors, and what the home keeps by physical address. What stood of these
in the new frame went as that frame was freed (R258, R275), and what the old frame had lost is poisoned in the new one (R256).
The freed old frame reads 0 (log 102). -/
def State.copyFrame (s : State) (old new : Nat) : State :=
  let mv := movedTo old new
  let mvs := fun (x : Nat) => mv (x * 128) / 128
  let stay := fun (x : Nat) => !inFrame new (x * 128)
  { s with
    mem := (s.mem.zero old 65536).writeN new (s.mem.readN old 65536),
    poison := ((s.goneSectors old ++ s.poison.filter stay).map mvs).eraseDups, upset := (s.upset.filter stay).map mvs,
    lost := s.lost.filter (fun la => !inFrame old (la * 512) && !inFrame new (la * 512)),
    slotBits := (s.slotBits.filter fun b => !inFrame new b.pa).map (fun b => { b with pa := mv b.pa }),
    phases := s.phases.map (fun r => { r with pa := mv r.pa }),
    cores := s.cores.mapVals (fun _ c => { c with ctxs := c.ctxs.mapVals fun _ x => { x with
      phaseAcq := x.phaseAcq.map fun a => (mv a.1, a.2), phaseRel := x.phaseRel.map fun a => (mv a.1, a.2) } }),
    hints := s.hints.map (fun h => { h with va := mv h.va }), hwq := s.hwq.map (HwWait.moved old new),
    piers := s.piers.mapVals fun _ d => { d with prefetch := d.prefetch.map fun r => { r with hint := mv r.hint } } }

/-- R268 steps 3 to 5. DESIGN CHOICE (log 121): the page's access counter goes with it to its new frame. -/
def State.migEnd (s : State) (m : Migration) : State :=
  let s := (s.flushFrame m.old).copyFrame m.old m.new
  let s := if m.chunked then (List.range 128).foldl (fun s i => s.tierWrite (m.new / 512 + i)) s else s
  let s := if tierOf m.old == 0 then s.updPier (homePier m.old) fun d => { d with frames := d.frames ++ [m.old] }
    else s.freeChunks m.old
  let e := s.mem.num m.pte 8
  let e' := fld e 63 52 * 2 ^ 52 + m.new + m.tier * 2 ^ 9 + fld e 8 0
  let n := s.access.get 0 (m.old / 65536)
  { s.hwWrite m.pte (toBytes 8 e') with
    access := (s.access.set (m.old / 65536) 0).set (m.new / 65536) n,
    migrations := s.migrations.filter fun x => x.pte != m.pte }

/-- R255: the chunks a demotion takes, by the home of each line. -/
def State.chunkNeed (s : State) (m : Migration) (p : Nat) : Nat :=
  ((List.range 128).map fun i =>
    if homePier (m.new + 512 * i) == p then chunksOf (s.mem.readN (m.old + 512 * i) 512) else 0).sum

/-- R255: the first Pier die whose free list does not exceed its reserve by what the migration takes from it, or where an
earlier allocating write waits for chunks. -/
def State.shortDie (s : State) (m : Migration) : Option Nat :=
  if !m.chunked then none
  else (List.range 4).find? fun p =>
    let need := s.chunkNeed m p
    need != 0 && (decide ((s.pier p).free.length < (s.pier p).chunkRsv + need)
      || ((s.pier p).allocWaits.takeWhile fun w => w.migration != m.pte).any fun _ => true)

/-- R255: the migration waits in line at a Pier die, which asks for chunks. -/
def State.waitChunks (s : State) (m : Migration) (p : Nat) : State :=
  let s := { s with piers := s.piers.mapVals fun k d =>
    if k == p then d else { d with allocWaits := d.allocWaits.filter fun w => w.migration != m.pte } }
  if (s.pier p).allocWaits.any fun w => w.migration == m.pte then s
  else s.updPier p fun d => { d with allocWaits := d.allocWaits ++ [⟨m.pte, s.chunkNeed m p⟩], chunkIrq := true }

/-- R268, R255: migration k reaches its copy once no pin is left; a demotion short of chunks waits in line at the die that
is short. -/
def State.migCopy (s : State) (k : Nat) : State :=
  match s.migrations[k]? with
  | none => s
  | some m =>
    if s.pinned m.old then s
    else match s.shortDie m with
      | some p => s.waitChunks m p
      | none =>
        ({ s with piers := s.piers.mapVals fun _ d => { d with
          allocWaits := d.allocWaits.filter fun w => w.migration != m.pte } }).migEnd m

/-- A second-tier frame for a demotion: the first from a place the spec leaves open that no range of (address, bytes) in
use holds. -/
def tierFrame (used : List (Nat × Nat)) : Nat → Nat → Nat
  | 0, k => Config.lpddrBase + 65536 * (k % 2 ^ 26)
  | f + 1, k =>
    let a := Config.lpddrBase + 65536 * (k % 2 ^ 26)
    match used.find? fun u => decide (u.1 ≤ a ∧ a < u.1 + u.2) with
    | some u => tierFrame used f ((u.1 + u.2 - Config.lpddrBase) / 65536)
    | none => a

/-- R267: the page whose counter is lowest. DESIGN CHOICE (log 122): of several, the first in the order of the page tables. -/
def State.coldest (s : State) : List PageAt → Option PageAt
  | [] => none
  | p :: t =>
    match s.coldest t with
    | none => some p
    | some q => if s.access.get 0 (q.frame / 65536) < s.access.get 0 (p.frame / 65536) then some q else some p

/-! ## Prefetch hints (R287, R305) -/

/-- R287: an entry whose requests are all served or dropped: DONE set, ARM cleared, DROPPED as counted. -/
def State.hintDone (s : State) (h : Hint) : State :=
  { s.hwWrite h.va (toBytes 8 (2 + min h.dropped 255 * 256)) with
    hints := s.hints.eraseP fun x => x.va == h.va }

/-- R305: the requests of an arming, each page to its home's queue or dropped. -/
def State.hintPages (s : State) (h : Hint) : List Nat → State × Hint
  | [] => (s, h)
  | i :: t =>
    let va := h.base + 65536 * i
    let s := s.walked [] h.vdev va
    let drop := fun (s : State) => (s.updVdev h.vdev fun d => { d with pfdrop := d.pfdrop + 1 }).hintPages
      { h with dropped := h.dropped + 1 } t
    match s.lookup [] h.vdev va with
    | none => drop s
    | some tr =>
      let p := homePier tr.pa
      if 256 ≤ (s.pier p).prefetch.length then drop s
      else (s.updPier p fun d => { d with prefetch := d.prefetch ++ [⟨h.vdev, h.va, va⟩] }).hintPages
        { h with left := h.left + 1 } t

/-- R287, R305: the pages of an armed entry go to their queues, and the entry is served, or done where none did. -/
def State.armNow (s : State) (h : Hint) : State :=
  let r := s.hintPages h (List.range h.pages)
  if r.2.left == 0 then r.1.hintDone r.2 else { r.1 with hints := r.1.hints ++ [r.2] }

/-- The pages that an armed entry names. -/
def Hint.range (h : Hint) : Nat × Nat := (h.base, 65536 * h.pages)

/-- R305: an atomic of a virtual device that changes ARM of a hint entry from 0 to 1. A page of it that migrates holds
the walks back (R268). -/
def State.armHint (s : State) (v pa old new : Nat) : State :=
  let hb := (s.vdev v).hintbase
  if !bit hb 63 || old % 2 == 1 || new % 2 == 0 then s
  else
    let at_ := fun (h : Nat) => (s.lookup [] v (bits hb 51 11 * 2048 + 32 * h)).map (·.pa)
    match (List.range 64).find? (fun h => at_ h == some pa) with
    | none => s
    | some h =>
      let base := s.mem.num (pa + 8) 8
      let pages := s.mem.num (pa + 16) 4
      let s := s.hwWrite pa (toBytes 8 1)
      if base % 65536 != 0 || 2 ^ 52 ≤ base || pages == 0 || 256 < pages || s.mem.num (pa + 20) 4 != 0 then
        s.hwWrite pa (toBytes 8 (2 + 255 * 256))
      else
        let h : Hint := ⟨v, h, pa, base, pages, 0, 0⟩
        if s.hwWaits v [h.range] then s.hwPush v (.arm h) else s.armNow h

/-- R159, R234, R305: an atomic of a virtual device at the home of a translated location, which may arm a hint entry. -/
def State.atomicAt (s : State) (t : Trans) (w v own : Nat) (f : Nat → Nat) : State × Except Nat Nat :=
  let r := s.atomicHome t.pa w v (fld t.pte 8 7) own f
  match r.2 with
  | .ok old => (r.1.armHint v t.pa old (f old), .ok old)
  | .error c => (r.1, .error c)

/-- A request of an armed entry has been served, or dropped: of the first such entry at that address, if one was armed again
before the requests of its earlier arming had all been served (DESIGN CHOICE, log 113). -/
def State.hintServed (s : State) (entry : Nat) (dropped : Bool) : State :=
  match s.hints.find? (fun h => h.va == entry) with
  | none => s
  | some h =>
    let h := { h with left := h.left - 1, dropped := h.dropped + b2n dropped }
    if h.left == 0 then s.hintDone h
    else { s with hints := s.hints.replaceF fun x => if x.va == entry then some h else none }

/-! ## The events -/

/-- R265: the walk of a TLB miss completes. -/
def execPageWalk (core va : Nat) (s : State) : Host.Outcome State Fault Refusal := .next (s.fillTlb core va)

/-- R267: a second-tier page homed at the Pier die whose counter has reached THRESH begins its promotion. DESIGN CHOICE (log 122):
of several such pages, the first in the order of the page tables. -/
def execPagePromotion (pier : Nat) (s : State) : Host.Outcome State Fault Refusal :=
  let d := s.pier pier
  let hot := fun (p : PageAt) => p.tier != 0 && !p.moving && homePier p.frame == pier
    && decide (bits d.migctl 63 48 ≤ s.access.get 0 (p.frame / 65536))
  match bit d.migctl 0, d.frames with
  | true, f :: fs =>
    match s.pages.find? hot with
    | some p => .next ((s.updPier pier fun d => { d with frames := fs }).migStart p f 0)
    | none => .next s
  | _, _ => .next s

/-- R267, R255: with the frame pool below LOW, the unpinned HBM page with the lowest counter begins its
demotion; none while the tier is closed. -/
def execPageDemotion (pier : Nat) (s : State) : Host.Outcome State Fault Refusal :=
  let d := s.pier pier
  if !bit d.migctl 0 || !s.tierOpen || bits d.migctl 15 1 ≤ d.frames.length then .next s
  else
    let all := s.leaves
    let ps := s.pages
    match s.coldest (ps.filter fun p => p.tier == 0 && !p.moving && homePier p.frame == pier && !s.pinned p.frame) with
    | none => .next s
    | some p =>
      let used := all.map (fun p => (p.frame, p.size)) ++ s.migrations.map fun m => (m.new, 65536)
      let s' := { s with fresh := s.fresh + 1 }
      .next (s'.migStart p (tierFrame used (2 * used.length + 1) (Config.demoteFrame s.fresh)) 1)

/-- R268. -/
def execMigrationCopy (k : Nat) (s : State) : Host.Outcome State Fault Refusal := .next (s.migCopy k)

/-- R267: the counters of the pages homed at the Pier die halve. -/
def execEpochHalving (pier : Nat) (s : State) : Host.Outcome State Fault Refusal :=
  .next { s with access := s.access.mapVals fun f n => if homePier (f * 65536) == pier then n / 2 else n }

/-- R255: the first allocating write stalled at a Pier die resumes once every FREE exceeds RSV by what it needs; one that
another die is short for waits there. -/
def execAllocatingWriteResume (pier : Nat) (s : State) : Host.Outcome State Fault Refusal :=
  match (s.pier pier).allocWaits with
  | [] => .next s
  | w :: ws =>
    match s.migrations.findIdx? (fun m => m.pte == w.migration) with
    | none => .next (s.updPier pier fun d => { d with allocWaits := ws })
    | some k => .next (s.migCopy k)

/-- R268: a physical address lies in a frame that migrates. -/
def State.frameMoving (s : State) (a : Nat) : Bool := s.migrations.any fun m => decide (m.old ≤ a ∧ a < m.old + 65536)

/-- R287, R267: the first request of the queue is served: its page promoted, once migration is enabled, a frame is free and
no pin is left, or counted as a hit; one whose page does not translate is dropped. One whose hint entry lies in a page that
migrates waits (R268); the page promoted may hold the entry itself. -/
def execPrefetchRequestServe (pier : Nat) (s : State) : Host.Outcome State Fault Refusal :=
  match (s.pier pier).prefetch with
  | [] => .next s
  | r :: rs =>
    let s1 := s.updPier pier fun d => { d with prefetch := rs }
    if s.frameMoving r.hint then .next s
    else match s.lookup [] r.vdev r.page with
    | none => .next ((s1.updVdev r.vdev fun d => { d with pfdrop := d.pfdrop + 1 }).hintServed r.hint true)
    | some t =>
      if tierOf t.pa == 0 || t.size != 65536 then
        .next ((s1.updVdev r.vdev fun d => { d with pfhit := d.pfhit + 1 }).hintServed r.hint false)
      else
        match s.walk r.vdev r.page, (s.pier pier).frames with
        | some w, f :: fs =>
          let p : PageAt := ⟨r.vdev, r.page, w.entry, w.pte, w.size⟩
          if !bit (s.pier pier).migctl 0 || p.moving || s.pinned p.frame then .next s
          else
            let s2 := (s1.updPier pier fun d => { d with frames := fs }).migStart p f 0
            .next ((s2.migEnd ⟨p.vdev, p.entry, p.va, p.frame, f, 0, false⟩).hintServed (movedTo p.frame f r.hint) false)
        | _, _ => .next s

/-- R255: chunks that a predicate picks leave the free lists; a die whose FREE falls to RSV asks for chunks. -/
def State.takeChunks (s : State) (p : Nat → Bool) : State :=
  { s with piers := s.piers.mapVals fun _ d =>
    let free := d.free.filter fun a => !p a
    { d with free := free,
             chunkIrq := d.chunkIrq || decide (free.length < d.free.length ∧ free.length ≤ d.chunkRsv) } }

/-- R256: the chunks of the extent leave the free lists, those too that a write-back gives up; its dirty lines are
written back, and it is answered. -/
def execExtentReleaseRequest (base len : Nat) (s : State) : Host.Outcome State Fault Refusal :=
  let in_ := fun (a : Nat) => decide (base ≤ a ∧ a < base + len)
  let off := fun (s : State) => s.takeChunks in_
  let s := off s
  let mine := fun (l : Line) => in_ (l.pa * 512) || (s.chunkOf.get [] l.pa).any in_
  let s := off ((s.l2 ++ s.msc).foldl (fun s l => if mine l then s.toTier l else s) s)
  let clean := fun (l : Line) => if mine l then { l with dirty := 0 } else l
  .next { s with
    l2 := s.l2.map clean, msc := s.msc.map clean,
    extents := s.extents.filter fun e => !decide (base ≤ e.1 ∧ e.1 + e.2 ≤ base + len) }

/-- R256: the owners of dirty lines that a predicate picks: virtual device, line and context. -/
def State.dirtyOwners (s : State) (p : Nat → Bool) : List (Nat × Nat × Nat) :=
  ((s.l2 ++ s.msc).filterMap fun l => if p l.pa && l.dirty != 0 then some (l.ownVdev, l.pa, ownerCtx l.ownCtx) else none)
    ++ s.cores.flatMap fun c => c.2.l1.filterMap fun l =>
      if p l.pa && l.bytes.any (fun b => b.2.written) then
        some (s.vdevOf c.1, l.pa, ((l.writers.getLast?).map (·.2)).getD 0xFFFF) else none

/-- One owner a line and virtual device. -/
def oneEach : List (Nat × Nat × Nat) → List (Nat × Nat × Nat)
  | [] => []
  | x :: t => x :: (oneEach t).filter fun y => !(y.1 == x.1 && y.2.1 == x.2.1)

/-- R256: the extent's cached lines are dropped, from every L1, L2 and the MSC, and its bytes lost, those too of lines whose
chunks lie in it; the virtual devices that owned dirty ones are told that all sectors of the line are. -/
def execForcedExtentRemoval (base len : Nat) (s : State) : Host.Outcome State Fault Refusal :=
  let in_ := fun (a : Nat) => decide (base ≤ a ∧ a < base + len)
  let mine := fun (la : Nat) => in_ (la * 512) || (s.chunkOf.get [] la).any in_
  let far := (s.chunkOf.filter fun e => e.2.any in_ && !in_ (e.1 * 512)).map (·.1)
  let t := s.takeChunks in_
  let t := { t with
    l2 := s.l2.filter (fun l => !mine l.pa), msc := s.msc.filter (fun l => !mine l.pa),
    cores := s.cores.mapVals (fun _ c => { c with l1 := c.l1.filter fun l => !mine l.pa }),
    chunkOf := s.chunkOf.filter (fun e => !e.2.any in_),
    lost := far ++ s.lost,
    extents := s.extents.filter (fun e => !decide (base ≤ e.1 ∧ e.1 + e.2 ≤ base + len)),
    removed := (base, len) :: s.removed }
  .next ((oneEach (s.dirtyOwners mine)).foldl (fun s o => s.machineCheck o.1 (o.2.1 * 512) 3 o.2.2 15) t)

/-- R252. DESIGN CHOICE (log 123): the bytes of an extent that was removed by force can be read again as they were once the same
extent is granted anew. -/
def execExtentGrant (base len : Nat) (s : State) : Host.Outcome State Fault Refusal :=
  .next { s with extents := s.extents ++ [(base, len)], removed := s.removed.filter fun e => e != (base, len) }

/-- R255: the second tier opens once FREE exceeds RSV on every Pier die. -/
def State.openTier (s : State) : State :=
  { s with tierOpen := s.tierOpen || (List.range 4).all fun p => decide ((s.pier p).chunkRsv < (s.pier p).free.length) }

/-- R254, R255: a chunk given to the list; one on a list, one that a line holds (log 101) or one outside the granted space is
logged. The tier opens once FREE exceeds RSV on every die. -/
def execChunkAddWrite (pier w : Nat) (s : State) : Host.Outcome State Fault Refusal :=
  let a := fld w 51 7 * 128
  let listed := s.piers.any (fun d => d.2.free.contains a) || s.chunkOf.any fun e => e.2.contains a
  let granted := decide (Config.lpddrBase ≤ a ∧ a + 128 ≤ Config.lpddrEnd) || inList s.extents a 128
  if Config.numPiers ≤ pier then .next s
  else if listed || !granted then .next (s.errorLog pier 2 w)
  else .next (s.updPier pier fun d => { d with free := d.free ++ [a] }).openTier

/-- R254, R255: a reserve below 1,572,864 is ignored and logged; one below FREE may open the tier. -/
def execChunkRsvWrite (pier w : Nat) (s : State) : Host.Outcome State Fault Refusal :=
  if Config.numPiers ≤ pier then .next s
  else if w % 2 ^ 32 < Config.chunkReserve then .next (s.errorLog pier 1 w)
  else
    let t := s.updPier pier fun d => { d with
      chunkRsv := w % 2 ^ 32, chunkIrq := d.chunkIrq || decide (d.free.length ≤ w % 2 ^ 32 ∧ d.chunkRsv < d.free.length) }
    .next t.openTier

/-- R267: an HBM frame given to the pool. -/
def execFrameAddWrite (pier w : Nat) (s : State) : Host.Outcome State Fault Refusal :=
  .next (if pier < Config.numPiers then
    s.updPier pier fun d => { d with frames := d.frames ++ [fld w 51 16 * 65536] } else s)

end Sys2Proof.Machine
end

