-- ==== Sys2Proof/Machine/Suspend.lean ====
section
/-! DEFINITION. Machine/Suspend.lean: control-register values, the save area, the unit block and the heavy extension,
and the points at which a record leaves its context (R208, R329-R337, R346-R349, R396). -/

namespace Sys2Proof.Machine

open Sys2Proof

/-! ## Control registers read (R209-R219, R321) -/

/-- The value of control register r for context j of core n, whose core state is c. -/
def State.ctlWord (s : State) (n : Nat) (c : Core) (j r : Nat) : Word :=
  let x := c.ctx j
  let w := fun (k : Nat) => BitVec.ofNat 64 k
  match r with
  | 0x000 => s.cstatOf n c j
  | 0x001 => w (x.rm % 4)
  | 0x002 => w x.vstat.toNat
  | 0x003 => w x.mstat.toNat
  | 0x004 => x.mctl
  | 0x008 | 0x009 | 0x00A | 0x00B => x.dfault.get 0 (r - 8)
  | 0x010 => w c.b0
  | 0x011 => w c.b1
  | 0x012 => w c.b2
  | 0x014 => c.lwbase
  | 0x015 => w c.spsz
  | 0x018 => w c.ahd
  | 0x019 => w c.atl
  | 0x01A => w c.bhd
  | 0x01B => w c.btl
  | 0x020 => x.dprog
  | 0x024 => x.uivec
  | 0x025 => x.uipc
  | 0x028 => w c.pbound
  | 0x029 => w (s.cluster (clusterOf n)).ageTicks
  | 0x030 => x.cbctl
  | 0x031 => x.cbtol
  | 0x040 => c.tvec
  | 0x041 => x.tcause
  | 0x042 => x.tinfo
  | 0x043 => x.trappc
  | 0x044 => x.tfbase
  | 0x050 | 0x051 | 0x052 | 0x053 => x.vlog.get 0 (r - 0x50)
  | _ => if r < 0x120 then x.counters.get 0 r else c.counters.get 0 r

/-! ## Codebook images (R140) -/

/-- The header word of R140. -/
def Codebook.header (b : Codebook) : Nat := b.n % 32 + b.tag % 4 * 256

/-- The 144-byte image, zeros at positions n and above. -/
def Codebook.image (b : Codebook) : List Byte :=
  let upTo := fun (l : List W32) => (List.range 16).flatMap fun i => toBytes 4 (if i < b.n then (nth 0 l i).toNat else 0)
  toBytes 4 b.header ++ toBytes 12 0 ++ upTo b.entry ++ upTo b.pop

def word32 (bs : List Byte) (o : Nat) : W32 := BitVec.ofNat 32 (ofBytes ((bs.drop o).take 4))

/-- Bytes of an entry of a format tag (R139). -/
def tagBytes (f : Nat) : Nat := if f == 0 then 4 else 2

/-- The register an image describes: +0 and 0 at positions n and above; bits above a 16-bit entry are no part of it. -/
def codebookOf (bs : List Byte) : Codebook :=
  let h := ofBytes (bs.take 4)
  let n := h % 32
  let tag := h / 256 % 4
  let row := fun (o m : Nat) => tab 16 fun i => if i < n then BitVec.ofNat 32 ((word32 bs (o + 4 * i)).toNat % m) else 0
  ⟨n, tag, row 16 (2 ^ (8 * tagBytes tag)), row 80 (2 ^ 32)⟩

/-! ## The save area (R208) -/

/-- R389: a record that passes through a save area loses its map and sets MAPLOST. -/
def Ctx.savedS (x : Ctx) : Tbl Word :=
  x.s.map fun e => if x.maps.any fun m => m.1 == e.1 then (e.1, e.2 ||| BitVec.ofNat 64 (2 ^ 55)) else e

def laneBytes (v : Lanes) : List Byte := (List.range 128).flatMap fun l => toBytes 4 (lane v l).toNat
def lanesAt (bs : List Byte) : Lanes := tab 128 fun l => word32 bs (4 * l)

def DBank.bytes (b : DBank) (g : Nat) : List Byte :=
  toBytes 8 b.lens ++ toBytes 1 (b2n b.valid * 128 + b.tag % 16) ++ toBytes 6 0 ++ toBytes 1 g

def bankOf (bs : List Byte) : DBank :=
  ⟨(nth 0 bs 8).toNat / 128 == 1, (nth 0 bs 8).toNat % 16, ofBytes (bs.take 8), 0⟩

/-- The control registers a save area holds, in its order. -/
def savedCtl : List Nat := [0x000, 0x001, 0x002, 0x003, 0x004, 0x030, 0x031, 0x024, 0x025, 0x008, 0x009, 0x00A, 0x00B, 0x020]

/-- The 11,520 bytes of R208. -/
def State.saveImage (s : State) (n j : Nat) : List Byte :=
  let c := s.core n
  let x := c.ctx j
  { x with s := x.savedS }.sImage ++ x.feImage ++ toBytes 4 0 ++ toBytes 1 (x.p % 256 + (1 - x.p % 2)) ++ toBytes 43 0
    ++ x.bImage ++ savedCtl.flatMap (fun r => toBytes 8 (s.ctlWord n c j r).toNat) ++ toBytes 16 0
    ++ (List.range 16).flatMap (fun k => (x.cb.get Codebook.reset k).image)
    ++ (List.range 8).flatMap (fun k =>
      let t := x.dt.get DTable.reset k
      t.b0.bytes (t.g % 16) ++ t.b1.bytes 0)
    ++ (List.range 16).flatMap fun k => laneBytes (x.regV k)

/-- The fields of MCTL, CBCTL, DFAULT0 and DPROG, reserved bits 0 (R5, R118, R212, R215, R332). -/
def mctlFields (w : Word) : Word := keep w 42 29 ||| keep w 27 16 ||| keep w 7 0
def dfault0Fields (w : Word) : Word := keep w 63 62 ||| keep w 55 48 ||| keep w 41 40 ||| keep w 37 0
def dprogFields (w : Word) : Word := keep w 31 12 ||| keep w 10 0
def cbctlFields (w : Word) : Word := keep w 9 8 ||| keep w 4 0
def uivecFields (w : Word) : Word := keep w 63 2 ||| keep w 0 0

/-- A context as a save area restores it (R208, R336): every ring 0, NXP 0, reserved bits 0 (R5); the registers that no
resumption changes stay (R221). -/
def Ctx.restoreSave (x : Ctx) (bs : List Byte) (heavy : Bool) : Ctx :=
  let ctl := fun (i : Nat) => wordAt bs (0x280 + 8 * i)
  { Ctx.reset with
    s := sOf bs, fe := fesOf (bs.drop 0x200), p := (nth 0 bs 0x214).toNat / 2 * 2 + 1,
    b := (wordsOf (bs.drop 0x240) 8).zipIdx.map fun w => (w.2, w.1),
    ev := bit (ctl 0) 0, rm := bits (ctl 1) 1 0, vstat := BitVec.ofNat 5 (ctl 2).toNat,
    mstat := BitVec.ofNat 5 (ctl 3).toNat, mctl := mctlFields (ctl 4), cbctl := cbctlFields (ctl 5),
    cbtol := keep (ctl 6) 31 0, uivec := uivecFields (ctl 7), uipc := keep (ctl 8) 63 2,
    dfault := tab 4 (fun i => (i, if i == 0 then dfault0Fields (ctl 9) else ctl (9 + i))),
    dprog := if heavy then dprogFields (ctl 13) else 0,
    cb := tab 16 (fun k => (k, codebookOf (bs.drop (0x300 + 144 * k)))),
    dt := tab 8 (fun k =>
      let t := bs.drop (0xC00 + 32 * k)
      (k, ⟨bankOf t, bankOf (t.drop 16), (nth 0 t 15).toNat % 16⟩)),
    v := tab 16 (fun k => (k, lanesAt (bs.drop (0xD00 + 512 * k)))),
    tcause := x.tcause, tinfo := x.tinfo, trappc := x.trappc, tfbase := x.tfbase,
    counters := x.counters, vlog := x.vlog, upend := x.upend, timer := x.timer, notice := x.notice,
    prods := x.prods }

/-- R335: a fresh record's context; counters and pending interrupts belong to the hardware context (R285, R322, R382;
log 21). -/
def Ctx.freshStart (x : Ctx) (wid arg addr : Nat) : Ctx :=
  { Ctx.reset with
    s := [(1, BitVec.ofNat 64 wid), (2, BitVec.ofNat 64 arg), (3, BitVec.ofNat 64 addr)],
    counters := x.counters, upend := x.upend, timer := x.timer, notice := x.notice, prods := x.prods }

/-! ## The unit block (R143, R333) -/

/-- The result ports in the block's order (R333). -/
def resPorts : List Nat := [0x30, 0x31, 0x32, 0x60, 0x61, 0x62, 0xA0, 0xA1]

def PortRes.code : PortRes → Nat
  | .value _ => 0 | .empty => 1 | .failed _ => 2 | .never => 3

def PortRes.word (port : Nat) : PortRes → Nat
  | .value w => w.toNat | .failed c => c * 256 + port | _ => 0

/-- The 4,096 bytes of the block; only the header with VALID = 0 for a context that used no unit. -/
def Units.image (u : Units) : List Byte :=
  if !u.used then toBytes 8 0
  else
    let res := resPorts.map fun p => u.res.get .never p
    let st := ((res.zipIdx).map fun r => r.1.code * 4 ^ r.2).sum
    let port := fun (p : Nat) => toBytes 8 (u.ports.get 0 p).toNat
    toBytes 8 (1 + b2n u.dedup.isSome * 2 + b2n u.rcu.isSome * 4 + u.dedupN % 32 * 2 ^ 8 + u.rcuN % 32 * 2 ^ 16
        + u.pairs % 512 * 2 ^ 32)
      ++ toBytes 8 st ++ (List.range 16).flatMap (fun i => toBytes 1 (nth 0 (u.dedup.getD []) i))
      ++ (List.range 12).flatMap port ++ [0x42, 0x43].flatMap port ++ [0x80, 0x81, 0x82].flatMap port ++ toBytes 24 0
      ++ (resPorts.zip res).flatMap (fun r => toBytes 8 (r.2.word r.1))
      ++ (List.range 256).flatMap (fun i => toBytes 1 (nth 0 (u.rcu.getD []) i))
      ++ laneBytes u.val0 ++ laneBytes u.val1 ++ (List.range 256).flatMap (fun i => toBytes 4 (nth 0 u.pops i))
      ++ List.replicate 1536 0

/-- The copies a block restores; reset ones where VALID is clear. -/
def unitsOf (bs : List Byte) : Units :=
  let h := ofBytes (bs.take 8)
  let num := fun (o k : Nat) => ofBytes ((bs.drop o).take k)
  let port := fun (o : Nat) (ps : List Nat) => (ps.zipIdx.map fun p => (p.1, wordAt bs (o + 8 * p.2)) : Tbl Word)
  if h % 2 == 0 then Units.reset
  else
    { ports := port 0x20 (List.range 12) ++ port 0x80 [0x42, 0x43] ++ port 0x90 [0x80, 0x81, 0x82],
      val0 := lanesAt (bs.drop 0x200), val1 := lanesAt (bs.drop 0x400),
      res := resPorts.zipIdx.map fun p => (p.1, match num 8 8 / 4 ^ p.2 % 4 with
        | 0 => PortRes.value (wordAt bs (0xC0 + 8 * p.2))
        | 2 => .failed (num (0xC0 + 8 * p.2) 8 / 256 % 256)
        | _ => .never),
      dedup := if h / 2 % 2 == 1 then some (tab 16 fun i => num (0x10 + i) 1) else none, dedupN := fld h 12 8,
      rcu := if h / 4 % 2 == 1 then some (tab 256 fun i => num (0x100 + i) 1) else none, rcuN := fld h 20 16,
      pops := tab 256 fun i => num (0x600 + 4 * i) 4, pairs := fld h 40 32, used := true }

/-! ## Heavy capture (R347, R348, R396) -/

/-- The base of context area j (R224). -/
def ctxArea (j : Nat) : Nat := 0x35000 + 0x2C00 * j

/-- R348, R396: beat writes and wide results other than mdrain land at the capture. -/
def LUnit.heavyLands : LUnit → Bool
  | .y0 | .y1 | .ld | .cbget | .beat => true
  | _ => false

def ringBytes (l : List Lanes) : List Byte := (List.range 4).flatMap fun d => laneBytes (nth zeroLanes l d)

/-- The staging of R396 for landings still in flight. -/
def staging (x : Ctx) (pc : Nat) : List Byte :=
  let mds := x.flights.filter fun f => f.unit == .md
  let slots := x.flights.map fun f =>
    if f.unit == .md then ((mds.findIdx fun g => g == f), f) else (f.val.toNat, f)
  let table := (slots.zipIdx.flatMap fun f => capBytes f.2 f.1.1 f.1.2) ++ List.replicate (16 * (48 - slots.length)) 0
  toBytes 8 pc ++ toBytes 1 x.flights.length ++ toBytes 55 0 ++ x.xImage ++ table
    ++ (List.range 4).flatMap (fun i => laneBytes ((mds[i]?.map (·.wide)).getD zeroLanes))
    ++ (List.range 4).flatMap (fun u => ringBytes (x.wide0.get [] u)) ++ toBytes 128 0

/-- What a staging restores (R349). -/
def Ctx.unstage (x : Ctx) (bs : List Byte) : Ctx :=
  let payload := fun (k : Nat) => lanesAt (bs.drop (0x380 + 512 * k))
  { x with
    x0 := wordsOf (bs.drop 0x40) 4, x1 := wordsOf (bs.drop 0x60) 4,
    wide0 := tab 4 (fun u => (u, tab 4 fun d => lanesAt (bs.drop (0xB80 + 2048 * u + 512 * d)))),
    flights := capFlights 0 false payload (bs.drop 0x80) (min 48 (nth 0 bs 8).toNat) }

/-! ## Records (R329-R332, R320) -/

def recBytes : Nat := 64

/-- FLAGS of a record at a suspension point (R330). -/
def flagsAt (old : Nat) (heavy array killed parked : Bool) : Nat :=
  old / 512 * 512 + b2n array * 64 + fld old 5 4 * 16 + b2n (killed || bit (BitVec.ofNat 64 old) 3) * 8 + b2n parked * 4
    + b2n heavy * 2

/-- R320: TICKS grows, saturating. -/
def addTicks (prog ticks : Nat) : Nat := prog / 2 ^ 48 * 2 ^ 48 + min (2 ^ 48 - 1) (prog % 2 ^ 48 + ticks)

/-- R320: RUNS grows, saturating. -/
def addRun (prog : Nat) : Nat := min 65535 (prog / 2 ^ 48 + 1) * 2 ^ 48 + prog % 2 ^ 48

/-- The points at which a record leaves its context with its state written (R337). -/
inductive Point where
  | suspend
  | light
  | heavy
  | park (space loc off seen dst : Nat)
  deriving DecidableEq, Repr

/-- Writes made one after the other for context j of core n into records, save areas and unit blocks; the first refusal's
cause and address (R432). -/
def State.putAll (s : State) (v own : Nat) : List (Nat × List Byte) → State × Option (Nat × Nat)
  | [] => (s, none)
  | (va, bs) :: t =>
    let r := s.recWrite v va bs own
    match r.2 with
    | .error e => (r.1, some e)
    | .ok _ => r.1.putAll v own t

/-- The WAIT field of a parked record (R332). -/
def waitWord (space loc off seen : Nat) : Nat := space * 2 ^ 62 + loc * 2 ^ 48 + seen % 16 * 2 ^ 32 + off

/-- R320: the progress counter as it is written back: the ticks of the run added to the field, where it can be read as a
store may have left it, else as the pick-up left it (log 103). -/
def State.progress (s : State) (v : Nat) (h : Held) : Nat :=
  addTicks (match (s.recRead v (h.addr + 48) 8).2 with
    | .ok bs => ofBytes bs
    | .error _ => h.prog) h.ticks

/-- R329, R337, R350: the record of a context as a suspension point writes it, from what the context holds of it. -/
def State.leftRecord (s : State) (v pc : Nat) (h : Held) (flags wait : Nat) : List Byte :=
  toBytes 8 pc ++ toBytes 8 h.wid ++ toBytes 8 h.save ++ toBytes 8 flags ++ toBytes 8 wait ++ toBytes 8 h.aff
    ++ toBytes 8 (s.progress v h) ++ toBytes 8 0

/-- R320, R337: the progress counter written as an item ends; the cause and the address of a refusal. -/
def State.putProgress (s : State) (n j : Nat) (h : Held) : State × Option (Nat × Nat) :=
  s.putAll (s.vdevOf n) (ctxNum n j) [(h.addr + 48, toBytes 8 (s.progress (s.vdevOf n) h))]

/-- R84, R85, R169, R337, R347: the record leaves with its state written; pc is its next bundle. The
context's producers and unit operations have completed. -/
def State.leaveAt (s : State) (n j pc : Nat) (p : Point) : State :=
  match (s.ctx n j).held with
  | none => s
  | some h =>
    let v := s.vdevOf n
    let own := ctxNum n j
    let heavy := p == .heavy
    let s := (s.settlePhase n j).l1WriteBack n fun _ => true
    let s := if heavy then s.updCore n fun c => c.landIf j fun f => f.unit.heavyLands else s
    let array := heavy && (s.core n).owner == some own
    let stage := staging (s.ctx n j) pc
    let s := if heavy then s.updCore n fun c =>
        let c := if array then c.saveArray else c
        { c with pool := c.pool.writeN (ctxArea j) stage }
      else s
    let ext := if !heavy then []
      else (if array then [(h.save + 0x2D00, (s.core n).pool.readN 0 0x35000)] else [])
        ++ [(h.save + 0x2D00 + 0x35000, stage)]
    let image := s.saveImage n j
    let units := (s.ctx n j).units.image
    let parked := match p with
      | .park _ _ _ _ _ => true
      | _ => false
    let wait := match p with
      | .park sp l o seen _ => waitWord sp l o seen
      | _ => 0
    let recNew := s.leftRecord v pc h (flagsAt h.flags heavy array (s.ctx n j).killed parked) wait
    let w := s.putAll v own ((h.save, image) :: (h.save + 0x3A900, units) :: ext ++ [(h.addr, recNew)])
    match w.2 with
    | some a => w.1.failItem n j (recCause a.1) a.2
    | none =>
      let cl := clusterOf n
      let ahead := ((w.1.core n).btiles.map (·.coded), max (w.1.core n).replay (w.1.core n).fifoSegs)
      let s := if array then w.1.updLaunch h.launch fun l => { l with heavies := l.heavies.set (l.slotOf h.addr) ahead }
        else w.1
      let s := s.updCore n fun c => c.depart n j
      let entry : Entry := ⟨h.addr, h.launch, s.time⟩
      match p with
      | .park sp l o seen dst =>
        s.setParkedOf cl ((s.cluster cl).parked ++ [⟨entry, sp, l, o, seen, dst, false⟩])
      | _ => s.enqueue cl h.prio entry

/-- R338: the item of a context ends; its producers have completed. One whose progress counter cannot be written
fails (R432). -/
def State.endNow (s : State) (n j : Nat) : State :=
  match (s.ctx n j).held with
  | none => s
  | some h =>
    let w := ((s.register n j).l1WriteBack n fun _ => true).putProgress n j h
    match w.2 with
    | some a => w.1.failItem n j (recCause a.1) a.2
    | none =>
      let s := w.1.updCore n fun c => c.depart n j
      match s.launch h.launch with
      | none => s
      | some l => s.itemEnd h.launch (l.slotOf h.addr)

/-- R337, R339, R361: end at supervisor level ends the item as failed, its stores released and its progress counter
written; where that is refused, the refusal is what it fails with (R432). -/
def State.endFailed (s : State) (n j : Nat) : State :=
  let s := (s.register n j).l1WriteBack n fun _ => true
  let w := match (s.ctx n j).held with
    | none => (s, none)
    | some h => s.putProgress n j h
  let x := w.1.ctx n j
  let cause := bits x.tcause 7 0
  match w.2 with
  | some a => w.1.failItem n j (recCause a.1) a.2
  | none => w.1.failItem n j cause (if hasAddress cause then (x.dfault.get 0 1).toNat else x.trappc.toNat)

/-- R341: a killed item stops at a boundary, its producers complete: nothing is written. -/
def State.killNow (s : State) (n j : Nat) : State :=
  let x := s.ctx n j
  let s := (s.register n j).updCore n fun c => c.depart n j
  match x.held with
  | none => s
  | some h =>
    match s.launch h.launch with
    | none => s
    | some l => s.itemEnd h.launch (l.slotOf h.addr)

/-! ## Resumption (R336, R349, R365) -/

/-- R349: what a heavy extension restores: the context's landings and rings, and the array, with what the launch keeps of
its coded tiles (log 15). -/
def State.heavyRestore (s : State) (n j : Nat) (array : Bool) (ahead : List Nat × Nat) (img stage : List Byte) : State :=
  let s := s.updCore n fun c => { c with pool := c.pool.writeN (ctxArea j) stage }
  let s := s.updCtx n j fun x => x.unstage stage
  if !array then s
  else s.updCore n fun c =>
    let slot := bits (c.ctx j).dprog 3 0
    let c := ({ c with pool := c.pool.writeN 0 img } : Core).loadArray img slot 0 ahead.2
    let c := { c with
      owner := some (ctxNum n j), play := c.play.map (fun (p : Play) => { p with ctx := j }),
      atiles := c.atiles.map fun (t : Tile) => { t with by_ := j } }
    c.recount j (c.btiles.zipIdx.map fun (t : Tile × Nat) => { t.1 with by_ := j, coded := nth 0 ahead.1 t.2 })

/-- R143, R350: the unit block at an address: its header, and the rest where VALID is set. -/
def State.unitBlock (s : State) (v va : Nat) : State × Except (Nat × Nat) (List Byte) :=
  let r := s.recRead v va 8
  match r.2 with
  | .ok h => if ofBytes h % 2 == 0 then (r.1, .ok h) else r.1.recRead v va 4096
  | .error e => (r.1, .error e)

/-- R336, R350: context j of core n, idle, takes the record of an entry. -/
def State.pickup (s : State) (n j : Nat) (e : Entry) : State :=
  let v := s.vdevOf n
  let own := ctxNum n j
  let fail := fun (s : State) (a : Nat × Nat) => match s.launch e.launch with
    | none => s
    | some l => s.failSlot e.launch (l.slotOf e.addr)
        (l.widAt (l.slotOf e.addr)) (recCause a.1) a.2 own
  let r := s.recRead v e.addr recBytes
  match r.2 with
  | .error x => fail r.1 x
  | .ok rec_ =>
    let num := fun (o : Nat) => ofBytes ((rec_.drop o).take 8)
    let fl := num 24
    let save := num 16
    let heavy := fld fl 1 1 == 1
    let array := fld fl 6 6 == 1
    let fl' := if heavy then fl - fld fl 6 6 * 64 - 2 else fl
    let fl' := fl' - fl' % 2
    let new := rec_.take 24 ++ toBytes 8 fl' ++ toBytes 8 0 ++ (rec_.drop 40).take 8 ++ toBytes 8 (addRun (num 48))
      ++ toBytes 8 0
    let w := r.1.recWrite v e.addr new own
    match w.2 with
    | .error x => fail w.1 x
    | .ok _ =>
      let s := w.1.l1Acquire n
      let held : Held := ⟨e.addr, e.launch, num 8, save, num 40 % 8, 0, fl', num 40, addRun (num 48)⟩
      let go := fun (s : State) (x : Ctx) => s.setCtx n j { x with held := some held, pc := num 0 / 4 * 4 }
      if fl % 2 == 1 then
        let arg := ((s.launch e.launch).map (·.arg)).getD 0
        go s ((s.ctx n j).freshStart (num 8) arg e.addr)
      else
        let a := s.recRead v save 11520
        match a.2 with
        | .error x => fail a.1 x
        | .ok img =>
          let u := a.1.unitBlock v (save + 0x3A900)
          match u.2 with
          | .error x => fail u.1 x
          | .ok ub =>
            let y := (u.1.ctx n j).restoreSave img heavy
            let y := ({ y with units := unitsOf ub }).recount 0 []
            if !heavy then go u.1 y
            else
              let h := if array then u.1.recRead v (save + 0x2D00) 0x35000 else (u.1, .ok [])
              let g := h.1.recRead v (save + 0x2D00 + 0x35000) 11264
              match h.2, g.2 with
              | .error x, _ => fail h.1 x
              | .ok _, .error x => fail g.1 x
              | .ok img, .ok stage =>
                let ahead := ((g.1.launch e.launch).map fun l => l.heavies.get ([], 0) (l.slotOf e.addr)).getD ([], 0)
                (go g.1 y).heavyRestore n j array ahead img stage

end Sys2Proof.Machine
end

