-- ==== Sys2Proof/Machine/Barriers.lean ====
section
/-! DEFINITION. Machine/Barriers.lean: local addresses, transaction barriers and plane counters at their homes, and the
waiters they release (R151, R166-R170, R182-R184, R279, R309-R316). -/

namespace Sys2Proof.Machine

open Sys2Proof

/-! ## Local addresses (R151) -/

/-- A barrier, a counter or an endpoint at its home: space 0 a scratchpad, 1 cluster SRAM. -/
structure Local where
  space : Nat
  loc : Nat
  off : Nat
  deriving DecidableEq, Repr

/-- R151: the fields of a local address issued by a core; none where a field is invalid. `me` is none for a
host or peer post, for which SELF = 1 is invalid (R172). -/
def localOf (me : Option Nat) (w : Nat) : Option Local :=
  let space := fld w 63 62
  let self := fld w 61 61 == 1
  let loc := fld w 57 48
  if 2 ≤ space || fld w 60 58 != 0 || fld w 47 32 != 0 then none
  else
    let here := fun (n : Nat) => if space == 0 then n else clusterOf n
    let at_ := if self then me.map here
      else if decide (loc < if space == 0 then Config.numCores else Config.numClusters) then some loc else none
    at_.map fun l => ⟨space, l, w % 2 ^ 32⟩

/-- The range lies in its space and is aligned (R150, R151). -/
def State.localFits (s : State) (l : Local) (n align : Nat) : Bool :=
  l.off % align == 0 &&
    (if l.space == 0 then decide (l.off + n ≤ (s.core l.loc).spsz) else decide (l.off + n ≤ Config.csramBytes))

/-- R230: a range at its home lies in a pool unit in transition. -/
def State.localMoving (s : State) (l : Local) (n : Nat) : Bool :=
  l.space == 0 && (s.core l.loc).changing ((s.core l.loc).b0 * Config.unitBytes + l.off) (max 1 n)

def State.localRead (s : State) (l : Local) (n : Nat) : List Byte :=
  if l.space == 0 then (s.core l.loc).scr l.off n else (s.cluster l.loc).csram.readN l.off n

def State.localWrite (s : State) (l : Local) (bs : List Byte) : State :=
  if l.space == 0 then s.updCore l.loc fun c => c.setScr l.off bs
  else s.updCluster l.loc fun c => { c with csram := c.csram.writeN l.off bs }

/-- The virtual device that holds a local address's core or cluster (R18). -/
def State.localVdev (s : State) (l : Local) : Nat :=
  (s.cluster (if l.space == 0 then clusterOf l.loc else l.loc)).vdev

def Local.plus (l : Local) (k : Nat) : Local := { l with off := l.off + k }

/-- R355: a local address of an instruction of the issuing core, with the fault of the check it fails. -/
def State.localArg (s : State) (w n align : Nat) : Except Void Local :=
  match localOf (some s.cur) w with
  | none => .error (s.engineFault w)
  | some l =>
    if l.space == 0 && l.loc == s.cur && l.off % align == 0 && s.mycore.scrChanging l.off n then .error (.stall .mem)
    else if s.localFits l n align then .ok l
    else .error (if l.space == 0 then faultAt 0x0D 0 0 l.off else s.engineFault w)

/-! ## Waiters -/

/-- The producers of every context of a core for which f gives a result complete with it (R54). -/
def Core.settle (c : Core) (f : Nat → Prod → Option Done) : Core :=
  c.ctxs.foldl (fun c e =>
    let x := c.ctx e.1
    let due := x.prods.filterMap fun p => (f e.1 p).map fun d => (p, d)
    let c := c.setCtx e.1 { x with prods := x.prods.filter fun p => (f e.1 p).isNone }
    due.foldl (fun c d => c.complete e.1 d.1 d.2) c) c

/-- The waits of a core's contexts for which f gives a result complete with it; the result is an acquire where `acq` says
that it synchronises with a release of cluster scope or wider (R364). -/
def State.settleCore (s : State) (n : Nat) (acq : Bool) (f : Nat → Prod → Option Done) : State :=
  let any := (s.core n).ctxs.any fun e => e.2.prods.any fun p => (f e.1 p).isSome
  if !any then s
  else
    let s := s.updCore n fun c => c.settle f
    if acq then s.l1Acquire n else s

/-- A variable producer of the issuing context that completes at once (R54). -/
def State.produceNow (s : State) (dst : Nat) (w : Work) (v : Nat) : State :=
  let s := s.produce dst w none
  s.finish s.cur s.j (s.me.prods.length - 1) ⟨dst, 0, s.me.shadowed dst, s.me.depth, w, none⟩ (.value (BitVec.ofNat 64 v))

/-! ## Releases that barriers and counters carry (R363, R364) -/

/-- A release of cluster scope or wider is noted at a scratchpad address of a core (log 94). -/
def State.markWide (s : State) (n at_ : Nat) (done : Bool) : State :=
  let w : WideSync := ⟨n, at_, done⟩
  if s.wides.contains w then s else { s with wides := w :: s.wides }

/-- A barrier or counter written anew carries no release. -/
def State.clearWide (s : State) (n at_ : Nat) : State :=
  { s with wides := s.wides.filter fun w => !(w.core == n && w.at_ == at_) }

/-- A phase completes: what its updates released goes with the completion. -/
def State.wideDone (s : State) (n at_ : Nat) : State :=
  if s.wides.contains ⟨n, at_, false⟩ then (s.clearWide n at_).markWide n at_ true else s

/-- R364: a wait on a barrier of cluster SRAM synchronises with a release of cluster scope or wider; one on a scratchpad
barrier where an update from outside the core went into a completed phase. -/
def State.barWide (s : State) (l : Local) : Bool := l.space != 0 || s.wides.contains ⟨l.loc, l.off, true⟩

/-! ## Transaction barriers (R166, R167, R311) -/

/-- The fields of a barrier. -/
structure Barrier where
  phase : Nat
  pendArr : Nat
  pendBytes : Nat
  expArr : Nat
  park : Bool
  ovf : Bool
  err : Bool
  high : Nat
  deriving DecidableEq, Repr

def barrierOf (bs : List Byte) : Barrier :=
  let v := ofBytes bs
  ⟨fld v 3 0, fld v 19 4, fld v 59 20, fld v 75 60, fld v 76 76 == 1, fld v 77 77 == 1, fld v 78 78 == 1, v / 2 ^ 79⟩

def Barrier.bytes (b : Barrier) : List Byte :=
  toBytes 16 (b.high * 2 ^ 79 + b2n b.err * 2 ^ 78 + b2n b.ovf * 2 ^ 77 + b2n b.park * 2 ^ 76 + b.expArr * 2 ^ 60
    + b.pendBytes * 2 ^ 20 + b.pendArr * 2 ^ 4 + b.phase)

/-- R169: what tbwait returns. -/
def Barrier.result (b : Barrier) : Nat := b.phase + b2n b.ovf * 16 + b2n b.err * 32

/-- R167, R311: one update; decrements saturate at 0 and additions at 2^40 - 1, setting OVF. -/
def Barrier.update (b : Barrier) (arr add sub : Nat) (err : Bool) : Barrier × Bool :=
  let m := 2 ^ 40 - 1
  let up := b.pendBytes + add
  let past := decide (b.pendArr < arr) || decide (m + sub < up) || decide (up < sub)
  let b := { b with
    pendArr := b.pendArr - arr, pendBytes := min m (up - sub), ovf := b.ovf || past, err := b.err || err }
  if b.pendArr == 0 && b.pendBytes == 0 then ({ b with phase := (b.phase + 1) % 16, pendArr := b.expArr }, true)
  else (b, false)

/-- R169, R279: a parked record enters the tail of its priority list, its sd holding the tbwait result; the item of one
that cannot be read or written fails (R432), and that of a killed item is not requeued (R353). -/
def State.unparkNow (s : State) (cl : Nat) (k : Parked) (result : Nat) : State :=
  if s.entryDead k.entry then s.dropDead k.entry
  else
  let v := (s.cluster cl).vdev
  let a := k.entry.addr
  let fail := fun (s : State) (at_ : Nat × Nat) => State.failRefused (s, [(k.entry, at_)])
  let r := s.recRead v a recBytes
  match r.2 with
  | .error e => fail r.1 e
  | .ok rec_ =>
    let num := fun (o n : Nat) => ofBytes ((rec_.drop o).take n)
    let save := num 16 8
    let code := save + 0x200 + k.dst / 4
    let q := if k.dst == 0 then (r.1, .ok [0]) else r.1.recRead v code 1
    match q.2 with
    | .error e => fail q.1 e
    | .ok b =>
      let fe := ofBytes b
      let sh := 4 ^ (k.dst % 4)
      let regs := if k.dst == 0 then []
        else [(save + 8 * k.dst, toBytes 8 result), (code, toBytes 1 (fe - fe / sh % 4 * sh))]
      let w := q.1.putAll v 0xFFF (regs ++ [(a + 24, toBytes 8 (num 24 8 - fld (num 24 8) 2 2 * 4) ++ toBytes 8 0)])
      match w.2 with
      | some x => fail w.1 x
      | none => w.1.enqueue cl (num 40 1 % 8) { k.entry with since := s.time }

/-- The record, and the words of its save area, that leaving a barrier reaches. -/
def State.unparkRanges (s : State) (v : Nat) (k : Parked) : List (Nat × Nat) :=
  [(k.entry.addr, recBytes), (s.devNum v (k.entry.addr + 16) 8, 0x240)]

/-- R268: the record leaves once it can be written. -/
def State.unpark (s : State) (cl : Nat) (k : Parked) (result : Nat) : State :=
  let v := (s.cluster cl).vdev
  if s.hwWaits v (if s.migrations.isEmpty then [] else s.unparkRanges v k) then s.hwPush v (.unpark cl k result)
  else s.unparkNow cl k result

/-- R279, R308, R311: the records parked on a barrier at its home leave, in park order. -/
def State.unparkAll (s : State) (l : Local) (b : Barrier) : State :=
  let mine := fun (k : Parked) => k.applied && k.space == l.space && k.loc == l.loc && k.off == l.off
  s.clusters.foldl (fun s e =>
    let due := (s.cluster e.1).parked.filter mine
    let s := if due.isEmpty then s
      else s.setParkedOf e.1 ((s.cluster e.1).parked.filter fun k => !mine k)
    due.foldl (fun s k => s.unpark e.1 k b.result) s) s

/-- R169: the result that a completed phase of a barrier gives a tbwait that waits on it. -/
def waitDone (l : Local) (b : Barrier) (p : Prod) : Option Done :=
  match p.work with
  | .tbwait sp loc off _ =>
    if sp == l.space && loc == l.loc && off == l.off then some (.value (BitVec.ofNat 64 b.result)) else none
  | _ => none

/-- The cores whose contexts may wait on a barrier (R169). -/
def Local.waiters (l : Local) : List Nat := if l.space == 0 then [l.loc] else (List.range 8).map (8 * l.loc + ·)

/-- R285: the gathers and scatters with UIRQ that counted toward a phase that has completed. -/
def State.uirqDone (s : State) (l : Local) (b : Barrier) : State :=
  let due := fun (u : UirqWait) => u.space == l.space && u.loc == l.loc && u.off == l.off && u.phase != b.phase
  let us := s.uirqs.filter due
  us.foldl (fun s u => s.userIrq u.ctx) { s with uirqs := s.uirqs.filter fun u => !due u }

/-- R167, R96: a phase completes at the home: EV on a scratchpad barrier's core, waiters and records released. -/
def State.phaseDone (s : State) (l : Local) (b : Barrier) : State :=
  let s := if l.space == 0 then s.updCore l.loc fun c => { c with
      ctxs := (List.range Config.contexts).foldl (fun t j => t.set j { t.get Ctx.reset j with ev := true }) c.ctxs } else s
  let s := l.waiters.foldl (fun s n => s.settleCore n (s.barWide l) fun _ p => waitDone l b p) s
  (s.unparkAll l b).uirqDone l b

/-- R167: an update applied at a barrier's home; `far` marks one from outside the core whose scratchpad holds the
barrier, whose release is wide (R363). -/
def State.barUpdate (s : State) (l : Local) (arr add sub : Nat) (err far : Bool) : State :=
  let r := (barrierOf (s.localRead l 16)).update arr add sub err
  let s := s.localWrite l r.1.bytes
  let s := if far && l.space == 0 then s.markWide l.loc l.off false else s
  if r.2 then (if l.space == 0 then s.wideDone l.loc l.off else s).phaseDone l r.1 else s

/-- R168: tbinit; it completes no phase, so what waits goes on waiting. -/
def State.barInit (s : State) (l : Local) (w : Nat) : State :=
  let b : Barrier := ⟨0, w % 65536, 0, w % 65536, fld w 16 16 == 1, false, false, 0⟩
  let s := s.localWrite l b.bytes
  if l.space == 0 then s.clearWide l.loc l.off else s

/-- An update applied as it arrives (R167); one whose barrier no longer lies in its space, or in its virtual device
(R7), is lost. -/
def State.barArrive (s : State) (m : BarMsg) : State :=
  let l : Local := ⟨m.space, m.loc, m.off⟩
  if !s.localFits l 16 16 || s.localVdev l != m.vdev then s
  else match m.init with
    | some w => s.barInit l w
    | none => s.barUpdate l m.arrive m.expect_ m.count m.err true

/-- R167, R168: updates in flight to a home arrive in order. -/
def State.drainBar (s : State) (l : Local) : State :=
  let here := fun (m : BarMsg) => m.space == l.space && m.loc == l.loc && m.off == l.off
  (s.barMsgs.filter here).foldl State.barArrive { s with barMsgs := s.barMsgs.filter fun m => !here m }

/-- R7, R168: an engine's update of a barrier that is still in its space. -/
def State.engineBar (s : State) (v : Nat) (tb : Option Local) (add sub : Nat) (err : Bool) : State :=
  match tb with
  | none => s
  | some l => if s.localVdev l == v && s.localFits l 16 16 then s.barUpdate l 0 add sub err true else s

/-! ## Writes of hardware that wait (R268) -/

/-- The ranges that a waiting write reaches. -/
def State.hwRanges (s : State) (v : Nat) : HwOp → List (Nat × Nat)
  | .put va bs _ => [(va, bs.length)]
  | .status slot _ _ _ => [(slot + 4, 4)]
  | .log hdr _ _ _ _ _ _ => [(hdr + 32, 32)]
  | .ri hdr _ _ => s.queueRanges v hdr
  | .mcheck _ _ _ _ _ => s.mcqRanges v
  | .killed a => [(a + 24, 1)]
  | .unpark _ k _ => s.unparkRanges v k
  | .arm h => [h.range]

/-- A write of hardware made. -/
def State.hwNow (s : State) (v : Nat) : HwOp → State
  | .put va bs own => s.devPutNow v va bs own
  | .status slot w own irq => s.putStatusNow v slot w own irq
  | .log hdr addr kind f agent wid own => s.queueLogNow v hdr addr kind f agent wid own
  | .ri hdr l own => s.riNow v hdr (s.ti v hdr l) own 65536
  | .mcheck pa kind ctx sect time => s.mcheckNow v pa kind ctx sect time
  | .killed a => s.killedNow v a
  | .unpark cl k result => s.unparkNow cl k result
  | .arm h => s.armNow h

/-- The waiting writes from number i on that need wait no longer are made, those of one virtual device in their order. -/
def State.hwRetry (s : State) (i : Nat) : Nat → State
  | 0 => s
  | f + 1 =>
    match s.hwq[i]? with
    | none => s
    | some w =>
      if (s.hwq.take i).any (·.vdev == w.vdev) || s.anyMoving w.vdev (s.hwRanges w.vdev w.op) then s.hwRetry (i + 1) f
      else (State.hwNow { s with hwq := dropAt s.hwq i } w.vdev w.op).hwRetry i f

/-! ## Plane counters (R182-R184, R316) -/

/-- The fields of a plane counter. -/
structure Plane where
  tag : Nat
  err : Bool
  reason : Nat
  cancelled : Bool
  cap : Nat
  planes : Nat
  deriving DecidableEq, Repr

def planeOf (w : Nat) : Plane := ⟨fld w 63 32, fld w 11 11 == 1, fld w 10 10, fld w 9 9 == 1, fld w 7 4, fld w 3 0⟩

def Plane.word (p : Plane) : Nat :=
  p.tag % 2 ^ 32 * 2 ^ 32 + b2n p.err * 2 ^ 11 + p.reason % 2 * 2 ^ 10 + b2n p.cancelled * 2 ^ 9 + p.cap % 16 * 16
    + p.planes % 16

/-- R182: a frozen counter never changes again until the next coll. -/
def Plane.frozen (p : Plane) : Bool := p.err || p.cancelled

/-- R183: the condition of a plwait. -/
def Plane.reached (p : Plane) (k : Nat) : Bool := decide (min k p.cap ≤ p.planes) || p.frozen

def Core.plane (c : Core) (addr : Nat) : Plane := planeOf (ofBytes (c.scr addr 8))

/-- R183: the result of a waiting plwait whose counter meets its condition. -/
def Core.planeDone (c : Core) (p : Prod) : Option Done :=
  match p.work with
  | .plane a k => if (c.plane a).reached k then some (.value (BitVec.ofNat 64 (ofBytes (c.scr a 8)))) else none
  | _ => none

/-- R183, R316, R364: the plwaits of a core whose counters meet their conditions complete; the result acquires where a
plane of cluster scope or wider was counted. -/
def State.settlePlanes (s : State) (n : Nat) : State :=
  let c := s.core n
  let wide := c.ctxs.any fun e => e.2.prods.any fun p => (c.planeDone p).isSome && (match p.work with
    | .plane a _ => s.wides.contains ⟨n, a, true⟩
    | _ => false)
  s.settleCore n wide fun _ p => c.planeDone p

/-- A counter written at its core, and the plwaits it releases (R183, R182). -/
def State.setPlane (s : State) (n addr : Nat) (p : Plane) : State :=
  (s.updCore n fun c => c.setScr addr (toBytes 8 p.word)).settlePlanes n

/-- R96: a plane landing or a freeze sets the event flag of the core's contexts. -/
def State.evAll (s : State) (n : Nat) : State :=
  s.updCore n fun c => { c with
    ctxs := (List.range Config.contexts).foldl (fun t j => t.set j { t.get Ctx.reset j with ev := true }) c.ctxs }

end Sys2Proof.Machine
end

