-- ==== Sys2Proof/WellFormed.lean ====
section
/-! DEFINITION. WellFormed.lean: the operand values a slot word may hold (R44-R51, R56-R66). -/

namespace Sys2Proof

/-- R44, R45: the codes that name an S register. -/
def sdOk (d : SDst) : Bool := d.toNat < 48 || 56 ≤ d.toNat

/-- R44: codes 48 to 55 are ring taps and name no register. -/
def SSrc.ok : SSrc → Bool
  | .reg n _ => sdOk n
  | .tap _ _ => true

/-- R56: the formats sfcvt accepts. -/
def CvtFmt.scalar : CvtFmt → Bool
  | .fp32 | .fp16 | .bf16 | .i32 => true
  | .e4m3 | .e5m2 | .i8 => false

/-- R60: the formats mdrain accepts. -/
def CvtFmt.float : CvtFmt → Bool
  | .fp32 | .fp16 | .bf16 | .e4m3 | .e5m2 => true
  | .i32 | .i8 => false

namespace Ports

/-- R144: the S operand ports. -/
def sOperand (p : Nat) : Bool :=
  p ≤ 0x0B || p == 0x42 || p == 0x43 || (0x80 ≤ p && p ≤ 0x82)

/-- R144: the trigger ports. -/
def trigger (p : Nat) : Bool :=
  (0x20 ≤ p && p ≤ 0x23) || p == 0x50 || p == 0x90

/-- R144: the ports an S-form pmov may name. -/
def sForm (p : Nat) : Bool := sOperand p || trigger p

/-- R144: the V operand ports, which a V-form pmov may name. -/
def vForm (p : Nat) : Bool := p == 0x40 || p == 0x41

/-- R144: the result ports, which pget may name. -/
def result (p : Nat) : Bool :=
  (0x30 ≤ p && p ≤ 0x32) || (0x60 ≤ p && p ≤ 0x62) || p == 0xA0 || p == 0xA1

end Ports

/-- R209, R321: the assigned control-register numbers. -/
def Creg.assigned (n : Nat) : Bool :=
  n ≤ 0x004 || (0x008 ≤ n && n ≤ 0x00B) || (0x010 ≤ n && n ≤ 0x012) || n == 0x014 || n == 0x015
  || (0x018 ≤ n && n ≤ 0x01B) || n == 0x020 || n == 0x024 || n == 0x025 || n == 0x028 || n == 0x029
  || n == 0x030 || n == 0x031 || (0x040 ≤ n && n ≤ 0x044) || (0x050 ≤ n && n ≤ 0x053)
  || (0x100 ≤ n && n ≤ 0x10F) || (0x120 ≤ n && n ≤ 0x123)

/-- The values each instruction's fields may hold; an event has none to check. -/
def Instr.wf : Instr → Bool
  | .bundleFetch _ => true
  | .fixedLatencyLanding _ _ => true
  | .nopS => true
  | .add d a b => sdOk d && a.ok && b.ok
  | .sub d a b => sdOk d && a.ok && b.ok
  | .addi d a _ => sdOk d && a.ok
  | .mul d a b => sdOk d && a.ok && b.ok
  | .mulh d a b => sdOk d && a.ok && b.ok
  | .mulhu d a b => sdOk d && a.ok && b.ok
  | .div d a b => sdOk d && a.ok && b.ok
  | .divu d a b => sdOk d && a.ok && b.ok
  | .rem d a b => sdOk d && a.ok && b.ok
  | .remu d a b => sdOk d && a.ok && b.ok
  | .andS d a b => sdOk d && a.ok && b.ok
  | .orS d a b => sdOk d && a.ok && b.ok
  | .xorS d a b => sdOk d && a.ok && b.ok
  | .andn d a b => sdOk d && a.ok && b.ok
  | .andi d a _ => sdOk d && a.ok
  | .ori d a _ => sdOk d && a.ok
  | .xori d a _ => sdOk d && a.ok
  | .shl d a b => sdOk d && a.ok && b.ok
  | .shr d a b => sdOk d && a.ok && b.ok
  | .sar d a b => sdOk d && a.ok && b.ok
  | .shli d a _ => sdOk d && a.ok
  | .shri d a _ => sdOk d && a.ok
  | .sari d a _ => sdOk d && a.ok
  | .clz d a => sdOk d && a.ok
  | .ctz d a => sdOk d && a.ok
  | .popc d a => sdOk d && a.ok
  | .extr d a b => sdOk d && a.ok && b.ok
  | .extru d a b => sdOk d && a.ok && b.ok
  | .ins d a b => sdOk d && a.ok && b.ok
  | .minS d a b => sdOk d && a.ok && b.ok
  | .maxS d a b => sdOk d && a.ok && b.ok
  | .minu d a b => sdOk d && a.ok && b.ok
  | .maxu d a b => sdOk d && a.ok && b.ok
  | .movi d _ => sdOk d
  | .movhi d _ => sdOk d
  | .selP0P3 d a b _ => sdOk d && a.ok && b.ok
  | .selP4P7 d a b _ => sdOk d && a.ok && b.ok
  | .lea d a b _ => sdOk d && a.ok && b.ok
  | .cmp _ _ a b => a.ok && b.ok
  | .cmpi _ _ a _ => a.ok
  | .pand _ _ _ => true
  | .por _ _ _ => true
  | .pxor _ _ _ => true
  | .pnot _ _ => true
  | .sfadd d a b => sdOk d && a.ok && b.ok
  | .sfmul d a b => sdOk d && a.ok && b.ok
  | .sfma d a b => sdOk d && a.ok && b.ok
  | .sfcvt d a f g _ => sdOk d && a.ok && f.scalar && g.scalar
  | .nopV => true
  | .vaddF32 _ _ _ => true
  | .vsubF32 _ _ _ => true
  | .vmulF32 _ _ _ => true
  | .vfmaF32 _ _ _ => true
  | .vfmsF32 _ _ _ => true
  | .vmaxF32 _ _ _ => true
  | .vminF32 _ _ _ => true
  | .vabsF32 _ _ => true
  | .vnegF32 _ _ => true
  | .vaddBf16 _ _ _ => true
  | .vmulBf16 _ _ _ => true
  | .vfmaBf16 _ _ _ => true
  | .vmaxBf16 _ _ _ => true
  | .vminBf16 _ _ _ => true
  | .vaddF16 _ _ _ => true
  | .vmulF16 _ _ _ => true
  | .vfmaF16 _ _ _ => true
  | .vmaxF16 _ _ _ => true
  | .vminF16 _ _ _ => true
  | .vaddI32 _ _ _ => true
  | .vsubI32 _ _ _ => true
  | .vmulI32 _ _ _ => true
  | .vmaxI32 _ _ _ => true
  | .vminI32 _ _ _ => true
  | .vandI32 _ _ _ => true
  | .vorI32 _ _ _ => true
  | .vxorI32 _ _ _ => true
  | .vandnI32 _ _ _ => true
  | .vshlI32 _ _ _ => true
  | .vshrI32 _ _ _ => true
  | .vsarI32 _ _ _ => true
  | .vcmpEqF32 _ _ _ => true
  | .vcmpLtF32 _ _ _ => true
  | .vcmpLeF32 _ _ _ => true
  | .vcmpEqI32 _ _ _ => true
  | .vcmpLtI32 _ _ _ => true
  | .vcmpLeI32 _ _ _ => true
  | .vsel _ _ _ => true
  | .vbcast _ a => a.ok
  | .vmovs _ a _ => a.ok
  | .vidx _ a => a.ok
  | .vcvt _ _ f g _ => !(f == .i8 && g == .i32)
  | .vrcpF32 _ _ => true
  | .vrsqF32 _ _ => true
  | .vexp2F32 _ _ => true
  | .vlog2F32 _ _ => true
  | .vtanhF32 _ _ => true
  | .vsigF32 _ _ => true
  | .vredAdd _ _ _ => true
  | .vredMax _ _ _ => true
  | .vredMin _ _ _ => true
  | .vscanAdd _ _ _ => true
  | .vshufLo _ _ _ _ => true
  | .vshufHi _ _ _ _ => true
  | .nopM => true
  | .mpush _ => true
  | .mswap => true
  | .macc _ _ _ => true
  | .maccG _ _ _ => true
  | .mdrain _ _ _ _ f _ => f.float
  | .mzero _ f c => f.toNat + c.toNat + 1 ≤ 128
  | .mcfg a => a.ok
  | .mrun s a l => a.ok && s.toNat + l.toNat + 1 ≤ 256
  | .playedBeat _ => true
  | .nopL => true
  | .lds d a _ _ => sdOk d && a.ok
  | .ldsS d a _ _ => sdOk d && a.ok
  | .sts a b _ _ => a.ok && b.ok
  | .ldv _ a _ => a.ok
  | .stv _ a _ => a.ok
  | .ld d a _ _ => sdOk d && a.ok
  | .ldS d a _ _ => sdOk d && a.ok
  | .lda d a _ _ => sdOk d && a.ok
  | .st a b _ _ => a.ok && b.ok
  | .sta a b _ _ => a.ok && b.ok
  | .loadCompletion _ _ _ => true
  | .tld _ a b d => a.ok && b.ok && sdOk d
  | .tldRingClaim _ _ => true
  | .tileLoadCompletion _ _ _ => true
  | .tst a b d => a.ok && b.ok && sdOk d
  | .tileStoreCompletion _ _ _ => true
  | .ldsc a _ => a.ok
  | .amoAdd _ _ d a _ => sdOk d && a.ok && d != 0
  | .amoAnd _ _ d a _ => sdOk d && a.ok && d != 0
  | .amoOr _ _ d a _ => sdOk d && a.ok && d != 0
  | .amoXor _ _ d a _ => sdOk d && a.ok && d != 0
  | .amoMin _ _ d a _ => sdOk d && a.ok && d != 0
  | .amoMax _ _ d a _ => sdOk d && a.ok && d != 0
  | .amoXchg _ _ d a _ => sdOk d && a.ok && d != 0
  | .amoCas _ _ d a _ => sdOk d && a.ok && d != 0 && d.toNat % 2 == 0
  | .amoReply _ _ _ => true
  | .phase a _ _ => a.ok
  | .phaseAcquireAtHome _ _ => true
  | .phaseReleaseRegistration _ _ => true
  | .acq _ => true
  | .rel _ => true
  | .fence _ => true
  | .nopC => true
  | .cpost a b d => a.ok && b.ok && sdOk d
  | .cpostCompletion _ _ _ => true
  | .gather _ a b => a.ok && b.ok
  | .scatter _ a b => a.ok && b.ok
  | .coll a b d => a.ok && b.ok && sdOk d
  | .tbinit a b => a.ok && b.ok
  | .tbarr a => a.ok
  | .tbexp a b => a.ok && b.ok
  | .tbwait a b d => a.ok && b.ok && sdOk d
  | .parkApply _ => true
  | .barrierUpdateArrival _ => true
  | .plwait a p d => a.ok && sdOk d && p.toNat ≤ 8
  | .plread a d => a.ok && sdOk d
  | .plcancel a => a.ok
  | .nxt a => a.ok
  | .pmovS o a => a.ok && Ports.sForm o.toNat
  | .pmovV o _ => Ports.vForm o.toNat
  | .pget d o => sdOk d && Ports.result o.toNat
  | .lddt _ a d => a.ok && sdOk d
  | .lddtCompletion _ _ _ => true
  | .cbld _ a => a.ok
  | .cbst _ a => a.ok
  | .cbget _ _ => true
  | .cbput _ _ => true
  | .vpld _ a => a.ok
  | .mbld s a n => a.ok && s.toNat + n.toNat + 1 ≤ 256
  | .cbuDedup _ _ => true
  | .cbuRemap _ _ => true
  | .cbuPair _ _ => true
  | .cbuExpand _ _ => true
  | .rcuRun _ _ => true
  | .htbBuild _ _ => true
  | .nopB => true
  | .pbr _ a => a.ok
  | .pbri _ _ => true
  | .br _ _ _ => true
  | .call _ _ _ => true
  | .ret _ _ => true
  | .pmark => true
  | .suspend => true
  | .endB => true
  | .nopX => true
  | .trap _ => true
  | .reti => true
  | .uret => true
  | .crd d n => sdOk d && Creg.assigned n.toNat
  | .cwr a n => a.ok && Creg.assigned n.toNat
  | .arrsave => true
  | .arrrest => true
  | .setpool a d => a.ok && sdOk d
  | .setpoolConversion _ => true
  | .tlbinv a _ => a.ok
  | .cwb a _ => a.ok
  | .cinv a _ => a.ok
  | .wfe => true
  | .supervisorTrapEntry _ _ => true
  | .userInterruptEntry _ _ => true
  | .switchOnStall _ => true
  | .switchQuantumExpiry _ => true
  | .preemptionRequest _ => true
  | .heavyPreemption _ _ => true
  | .itemKill _ _ => true
  | .timerExpiry _ _ => true
  | .noticeWrite _ _ => true
  | .cpreqWrite _ _ => true
  | .launchTake _ _ => true
  | .recordCreate _ => true
  | .recordPickup _ => true
  | .recordAging _ => true
  | .recordSteal _ => true
  | .dispenserBatchRequest _ _ _ => true
  | .dispenserBatchReturn _ _ => true
  | .dispenserExhaustion _ _ => true
  | .packetTake _ _ => true
  | .packetCompletion _ => true
  | .transformCompletion _ => true
  | .gatherRow _ _ => true
  | .scatterRow _ _ => true
  | .collectiveAnnounce _ => true
  | .planeLanding _ => true
  | .relayForward _ => true
  | .cancelUpstream _ => true
  | .truncation _ => true
  | .errorNotice _ => true
  | .decoderSegmentDecode _ => true
  | .pageWalk _ _ => true
  | .pagePromotion _ => true
  | .pageDemotion _ => true
  | .migrationCopy _ => true
  | .epochHalving _ => true
  | .allocatingWriteResume _ => true
  | .extentReleaseRequest _ _ => true
  | .forcedExtentRemoval _ _ => true
  | .prefetchRequestServe _ => true
  | .chunkAddWrite _ _ => true
  | .chunkRsvWrite _ _ => true
  | .frameAddWrite _ _ => true
  | .hwbaseWrite _ _ => true
  | .configRegisterWrite _ _ _ _ => true
  | .hostMemoryWrite _ _ _ => true
  | .hostMemoryRead _ _ _ => true
  | .hostAtomicopFetchadd _ _ _ => true
  | .hostAtomicopSwap _ _ _ => true
  | .hostAtomicopCas _ _ _ _ => true
  | .causewayAccess _ _ _ _ _ => true
  | .packageReset => true
  | .virtualDeviceReset _ => true
  | .clusterReassignment _ _ => true
  | .attestationRequest _ _ => true
  | .readTelemetry => true
  | .polrumAttest _ => true
  | .writeImageSlot _ _ => true
  | .raiseFloor _ => true
  | .polrumPackageReset => true
  | .readErrorLog _ => true
  | .thermalStep _ _ => true
  | .thermalTrip _ _ => true
  | .scaleQueueFill _ => true
  | .writeBackArrival _ _ => true
  | .systemCoreStore _ _ => true
  | .extentGrant _ _ => true

end Sys2Proof
end

