-- ==== Sys2Proof/Decode.lean ====
section
/-! DEFINITION. Decode.lean: slot words to instructions (R36, R44-R66) and back. Decoding is total and
names the reason of R40 for which a word is refused. -/

namespace Sys2Proof

/-- Why a slot word is no instruction: reasons 3, 6 and 7 of R40. -/
inductive DecodeError where
  | class7
  | unassignedOp
  | reservedField
  deriving DecidableEq, Repr

/-- R44: 64 × mode + code, taps at 48 + 4 × unit + depth. -/
def SSrc.code : SSrc → Nat
  | .reg n t => n.toNat + 64 * t.toNat
  | .tap u d => 48 + 4 * u.toNat + d.toNat

def SSrc.ofCode (c : Nat) : SSrc :=
  if 48 ≤ c % 64 ∧ c % 64 < 56 then .tap (Nat.beq (c / 4 % 2) 1) (BitVec.ofNat 2 c)
  else .reg (BitVec.ofNat 6 c) (Nat.beq (c / 64 % 2) 1)

/-- R46. -/
def VSrc.code : VSrc → Nat
  | .reg n p t => n.toNat + 16 * p.toNat + 64 * t.toNat
  | .tap u d => 128 + 16 * u.toNat + 4 * d.toNat

def VSrc.ofCode (c : Nat) : VSrc :=
  if 128 ≤ c then .tap (BitVec.ofNat 2 (c / 16)) (BitVec.ofNat 2 (c / 4))
  else .reg (BitVec.ofNat 4 c) (BitVec.ofNat 2 (c / 16)) (Nat.beq (c / 64 % 2) 1)

/-- R47. -/
def VShort.code : VShort → Nat
  | .reg n t => n.toNat + 16 * t.toNat
  | .tap u d => 32 + 4 * u.toNat + d.toNat

def VShort.ofCode (c : Nat) : VShort :=
  if 32 ≤ c then .tap (BitVec.ofNat 2 (c / 4)) (BitVec.ofNat 2 c)
  else .reg (BitVec.ofNat 4 c) (Nat.beq (c / 16 % 2) 1)

/-- R48. -/
def VDst.code : VDst → Nat
  | .reg n => n.toNat
  | .ring => 31

def VDst.ofCode (c : Nat) : VDst := if c = 31 then .ring else .reg (BitVec.ofNat 4 c)

/-- R51. -/
def Cond.code : Cond → Nat
  | .eq => 0 | .ne => 1 | .lt => 2 | .ltu => 3 | .le => 4 | .leu => 5

def Cond.ofCode : Nat → Cond
  | 1 => .ne | 2 => .lt | 3 => .ltu | 4 => .le | 5 => .leu | _ => .eq

def CvtFmt.code : CvtFmt → Nat
  | .fp32 => 0 | .fp16 => 1 | .bf16 => 2 | .e4m3 => 3 | .e5m2 => 4 | .i32 => 5 | .i8 => 6

def CvtFmt.ofCode : Nat → CvtFmt
  | 1 => .fp16 | 2 => .bf16 | 3 => .e4m3 | 4 => .e5m2 | 5 => .i32 | 6 => .i8 | _ => .fp32

def Scope.code : Scope → Nat
  | .core => 0 | .cluster => 1 | .die => 2 | .package => 3 | .system => 4

def Scope.ofCode : Nat → Scope
  | 1 => .cluster | 2 => .die | 3 => .package | 4 => .system | _ => .core

def AmoOrder.code : AmoOrder → Nat
  | .none => 0 | .acq => 1 | .rel => 2

def AmoOrder.ofCode : Nat → AmoOrder
  | 1 => .acq | 2 => .rel | _ => .none

def Size.code : Size → Nat
  | .byte => 0 | .half => 1 | .word => 2 | .double => 3

def Size.ofCode : Nat → Size
  | 1 => .half | 2 => .word | 3 => .double | _ => .byte

def Shape.code : Shape → Nat
  | .row => 0 | .col => 1 | .diag => 2

def Shape.ofCode : Nat → Shape
  | 1 => .col | 2 => .diag | _ => .row

def TldWhere.code : TldWhere → Nat
  | .ringA => 0 | .ringB => 1 | .scratch => 2

def TldWhere.ofCode : Nat → TldWhere
  | 1 => .ringB | 2 => .scratch | _ => .ringA

def PhaseKind.code : PhaseKind → Nat
  | .acq => 0 | .rel => 1

def PhaseKind.ofCode : Nat → PhaseKind
  | 1 => .rel | _ => .acq

def TlbKind.code : TlbKind → Nat
  | .all => 0 | .page => 1 | .vdev => 2

def TlbKind.ofCode : Nat → TlbKind
  | 1 => .page | 2 => .vdev | _ => .all

def CacheKind.code : CacheKind → Nat
  | .line => 0 | .page => 1 | .l1 => 2

def CacheKind.ofCode : Nat → CacheKind
  | 1 => .page | 2 => .l1 | _ => .line

/-- The CLASS and OP of a slot instruction (R36, R55-R66); an event has none. -/
def Instr.opcode : Instr → Option (Nat × Nat)
  | .bundleFetch _ => none
  | .fixedLatencyLanding _ _ => none
  | .nopS => some (0, 0)
  | .add _ _ _ => some (0, 1)
  | .sub _ _ _ => some (0, 2)
  | .addi _ _ _ => some (0, 3)
  | .mul _ _ _ => some (0, 4)
  | .mulh _ _ _ => some (0, 5)
  | .mulhu _ _ _ => some (0, 6)
  | .div _ _ _ => some (0, 7)
  | .divu _ _ _ => some (0, 8)
  | .rem _ _ _ => some (0, 9)
  | .remu _ _ _ => some (0, 10)
  | .andS _ _ _ => some (0, 11)
  | .orS _ _ _ => some (0, 12)
  | .xorS _ _ _ => some (0, 13)
  | .andn _ _ _ => some (0, 14)
  | .andi _ _ _ => some (0, 15)
  | .ori _ _ _ => some (0, 16)
  | .xori _ _ _ => some (0, 17)
  | .shl _ _ _ => some (0, 18)
  | .shr _ _ _ => some (0, 19)
  | .sar _ _ _ => some (0, 20)
  | .shli _ _ _ => some (0, 21)
  | .shri _ _ _ => some (0, 22)
  | .sari _ _ _ => some (0, 23)
  | .clz _ _ => some (0, 24)
  | .ctz _ _ => some (0, 25)
  | .popc _ _ => some (0, 26)
  | .extr _ _ _ => some (0, 27)
  | .extru _ _ _ => some (0, 28)
  | .ins _ _ _ => some (0, 29)
  | .minS _ _ _ => some (0, 30)
  | .maxS _ _ _ => some (0, 31)
  | .minu _ _ _ => some (0, 32)
  | .maxu _ _ _ => some (0, 33)
  | .movi _ _ => some (0, 34)
  | .movhi _ _ => some (0, 35)
  | .selP0P3 _ _ _ _ => some (0, 36)
  | .selP4P7 _ _ _ _ => some (0, 37)
  | .lea _ _ _ _ => some (0, 38)
  | .cmp _ _ _ _ => some (0, 39)
  | .cmpi _ _ _ _ => some (0, 40)
  | .pand _ _ _ => some (0, 41)
  | .por _ _ _ => some (0, 42)
  | .pxor _ _ _ => some (0, 43)
  | .pnot _ _ => some (0, 44)
  | .sfadd _ _ _ => some (0, 45)
  | .sfmul _ _ _ => some (0, 46)
  | .sfma _ _ _ => some (0, 47)
  | .sfcvt _ _ _ _ _ => some (0, 48)
  | .nopV => some (1, 0)
  | .vaddF32 _ _ _ => some (1, 1)
  | .vsubF32 _ _ _ => some (1, 2)
  | .vmulF32 _ _ _ => some (1, 3)
  | .vfmaF32 _ _ _ => some (1, 4)
  | .vfmsF32 _ _ _ => some (1, 5)
  | .vmaxF32 _ _ _ => some (1, 6)
  | .vminF32 _ _ _ => some (1, 7)
  | .vabsF32 _ _ => some (1, 8)
  | .vnegF32 _ _ => some (1, 9)
  | .vaddBf16 _ _ _ => some (1, 10)
  | .vmulBf16 _ _ _ => some (1, 11)
  | .vfmaBf16 _ _ _ => some (1, 12)
  | .vmaxBf16 _ _ _ => some (1, 13)
  | .vminBf16 _ _ _ => some (1, 14)
  | .vaddF16 _ _ _ => some (1, 15)
  | .vmulF16 _ _ _ => some (1, 16)
  | .vfmaF16 _ _ _ => some (1, 17)
  | .vmaxF16 _ _ _ => some (1, 18)
  | .vminF16 _ _ _ => some (1, 19)
  | .vaddI32 _ _ _ => some (1, 20)
  | .vsubI32 _ _ _ => some (1, 21)
  | .vmulI32 _ _ _ => some (1, 22)
  | .vmaxI32 _ _ _ => some (1, 23)
  | .vminI32 _ _ _ => some (1, 24)
  | .vandI32 _ _ _ => some (1, 25)
  | .vorI32 _ _ _ => some (1, 26)
  | .vxorI32 _ _ _ => some (1, 27)
  | .vandnI32 _ _ _ => some (1, 28)
  | .vshlI32 _ _ _ => some (1, 29)
  | .vshrI32 _ _ _ => some (1, 30)
  | .vsarI32 _ _ _ => some (1, 31)
  | .vcmpEqF32 _ _ _ => some (1, 32)
  | .vcmpLtF32 _ _ _ => some (1, 33)
  | .vcmpLeF32 _ _ _ => some (1, 34)
  | .vcmpEqI32 _ _ _ => some (1, 35)
  | .vcmpLtI32 _ _ _ => some (1, 36)
  | .vcmpLeI32 _ _ _ => some (1, 37)
  | .vsel _ _ _ => some (1, 38)
  | .vbcast _ _ => some (1, 39)
  | .vmovs _ _ _ => some (1, 40)
  | .vidx _ _ => some (1, 41)
  | .vcvt _ _ _ _ _ => some (1, 42)
  | .vrcpF32 _ _ => some (1, 43)
  | .vrsqF32 _ _ => some (1, 44)
  | .vexp2F32 _ _ => some (1, 45)
  | .vlog2F32 _ _ => some (1, 46)
  | .vtanhF32 _ _ => some (1, 47)
  | .vsigF32 _ _ => some (1, 48)
  | .vredAdd _ _ _ => some (1, 49)
  | .vredMax _ _ _ => some (1, 50)
  | .vredMin _ _ _ => some (1, 51)
  | .vscanAdd _ _ _ => some (1, 52)
  | .vshufLo _ _ _ _ => some (1, 53)
  | .vshufHi _ _ _ _ => some (1, 54)
  | .nopM => some (2, 0)
  | .mpush _ => some (2, 1)
  | .mswap => some (2, 2)
  | .macc _ _ _ => some (2, 3)
  | .maccG _ _ _ => some (2, 4)
  | .mdrain _ _ _ _ _ _ => some (2, 5)
  | .mzero _ _ _ => some (2, 6)
  | .mcfg _ => some (2, 7)
  | .mrun _ _ _ => some (2, 8)
  | .playedBeat _ => none
  | .nopL => some (3, 0)
  | .lds _ _ _ _ => some (3, 1)
  | .ldsS _ _ _ _ => some (3, 2)
  | .sts _ _ _ _ => some (3, 3)
  | .ldv _ _ _ => some (3, 4)
  | .stv _ _ _ => some (3, 5)
  | .ld _ _ _ _ => some (3, 6)
  | .ldS _ _ _ _ => some (3, 7)
  | .lda _ _ _ _ => some (3, 8)
  | .st _ _ _ _ => some (3, 9)
  | .sta _ _ _ _ => some (3, 10)
  | .loadCompletion _ _ _ => none
  | .tld _ _ _ _ => some (3, 11)
  | .tldRingClaim _ _ => none
  | .tileLoadCompletion _ _ _ => none
  | .tst _ _ _ => some (3, 12)
  | .tileStoreCompletion _ _ _ => none
  | .ldsc _ _ => some (3, 13)
  | .amoAdd _ _ _ _ _ => some (3, 14)
  | .amoAnd _ _ _ _ _ => some (3, 15)
  | .amoOr _ _ _ _ _ => some (3, 16)
  | .amoXor _ _ _ _ _ => some (3, 17)
  | .amoMin _ _ _ _ _ => some (3, 18)
  | .amoMax _ _ _ _ _ => some (3, 19)
  | .amoXchg _ _ _ _ _ => some (3, 20)
  | .amoCas _ _ _ _ _ => some (3, 21)
  | .amoReply _ _ _ => none
  | .phase _ _ _ => some (3, 22)
  | .phaseAcquireAtHome _ _ => none
  | .phaseReleaseRegistration _ _ => none
  | .acq _ => some (3, 23)
  | .rel _ => some (3, 24)
  | .fence _ => some (3, 25)
  | .nopC => some (4, 0)
  | .cpost _ _ _ => some (4, 1)
  | .cpostCompletion _ _ _ => none
  | .gather _ _ _ => some (4, 2)
  | .scatter _ _ _ => some (4, 3)
  | .coll _ _ _ => some (4, 4)
  | .tbinit _ _ => some (4, 5)
  | .tbarr _ => some (4, 6)
  | .tbexp _ _ => some (4, 7)
  | .tbwait _ _ _ => some (4, 8)
  | .parkApply _ => none
  | .barrierUpdateArrival _ => none
  | .plwait _ _ _ => some (4, 9)
  | .plread _ _ => some (4, 10)
  | .plcancel _ => some (4, 11)
  | .nxt _ => some (4, 12)
  | .pmovS _ _ => some (4, 13)
  | .pmovV _ _ => some (4, 14)
  | .pget _ _ => some (4, 15)
  | .lddt _ _ _ => some (4, 16)
  | .lddtCompletion _ _ _ => none
  | .cbld _ _ => some (4, 17)
  | .cbst _ _ => some (4, 18)
  | .cbget _ _ => some (4, 19)
  | .cbput _ _ => some (4, 20)
  | .vpld _ _ => some (4, 21)
  | .mbld _ _ _ => some (4, 22)
  | .cbuDedup _ _ => none
  | .cbuRemap _ _ => none
  | .cbuPair _ _ => none
  | .cbuExpand _ _ => none
  | .rcuRun _ _ => none
  | .htbBuild _ _ => none
  | .nopB => some (5, 0)
  | .pbr _ _ => some (5, 1)
  | .pbri _ _ => some (5, 2)
  | .br _ _ _ => some (5, 3)
  | .call _ _ _ => some (5, 4)
  | .ret _ _ => some (5, 5)
  | .pmark => some (5, 6)
  | .suspend => some (5, 7)
  | .endB => some (5, 8)
  | .nopX => some (6, 0)
  | .trap _ => some (6, 1)
  | .reti => some (6, 2)
  | .uret => some (6, 3)
  | .crd _ _ => some (6, 4)
  | .cwr _ _ => some (6, 5)
  | .arrsave => some (6, 6)
  | .arrrest => some (6, 7)
  | .setpool _ _ => some (6, 8)
  | .setpoolConversion _ => none
  | .tlbinv _ _ => some (6, 9)
  | .cwb _ _ => some (6, 10)
  | .cinv _ _ => some (6, 11)
  | .wfe => some (6, 12)
  | .supervisorTrapEntry _ _ => none
  | .userInterruptEntry _ _ => none
  | .switchOnStall _ => none
  | .switchQuantumExpiry _ => none
  | .preemptionRequest _ => none
  | .heavyPreemption _ _ => none
  | .itemKill _ _ => none
  | .timerExpiry _ _ => none
  | .noticeWrite _ _ => none
  | .cpreqWrite _ _ => none
  | .launchTake _ _ => none
  | .recordCreate _ => none
  | .recordPickup _ => none
  | .recordAging _ => none
  | .recordSteal _ => none
  | .dispenserBatchRequest _ _ _ => none
  | .dispenserBatchReturn _ _ => none
  | .dispenserExhaustion _ _ => none
  | .packetTake _ _ => none
  | .packetCompletion _ => none
  | .transformCompletion _ => none
  | .gatherRow _ _ => none
  | .scatterRow _ _ => none
  | .collectiveAnnounce _ => none
  | .planeLanding _ => none
  | .relayForward _ => none
  | .cancelUpstream _ => none
  | .truncation _ => none
  | .errorNotice _ => none
  | .decoderSegmentDecode _ => none
  | .pageWalk _ _ => none
  | .pagePromotion _ => none
  | .pageDemotion _ => none
  | .migrationCopy _ => none
  | .epochHalving _ => none
  | .allocatingWriteResume _ => none
  | .extentReleaseRequest _ _ => none
  | .forcedExtentRemoval _ _ => none
  | .prefetchRequestServe _ => none
  | .chunkAddWrite _ _ => none
  | .chunkRsvWrite _ _ => none
  | .frameAddWrite _ _ => none
  | .hwbaseWrite _ _ => none
  | .configRegisterWrite _ _ _ _ => none
  | .hostMemoryWrite _ _ _ => none
  | .hostMemoryRead _ _ _ => none
  | .hostAtomicopFetchadd _ _ _ => none
  | .hostAtomicopSwap _ _ _ => none
  | .hostAtomicopCas _ _ _ _ => none
  | .causewayAccess _ _ _ _ _ => none
  | .packageReset => none
  | .virtualDeviceReset _ => none
  | .clusterReassignment _ _ => none
  | .attestationRequest _ _ => none
  | .readTelemetry => none
  | .polrumAttest _ => none
  | .writeImageSlot _ _ => none
  | .raiseFloor _ => none
  | .polrumPackageReset => none
  | .readErrorLog _ => none
  | .thermalStep _ _ => none
  | .thermalTrip _ _ => none
  | .scaleQueueFill _ => none
  | .writeBackArrival _ _ => none
  | .systemCoreStore _ _ => none
  | .extentGrant _ _ => none

/-- Bits 21:0 of a slot instruction's word (R56-R66). -/
def Instr.operands : Instr → Nat
  | .bundleFetch _ => 0
  | .fixedLatencyLanding _ _ => 0
  | .nopS => 0
  | .add d a b => d.toNat * 65536 + a.code * 512 + b.code * 4
  | .sub d a b => d.toNat * 65536 + a.code * 512 + b.code * 4
  | .addi d a i => d.toNat * 65536 + a.code * 512 + i.toNat
  | .mul d a b => d.toNat * 65536 + a.code * 512 + b.code * 4
  | .mulh d a b => d.toNat * 65536 + a.code * 512 + b.code * 4
  | .mulhu d a b => d.toNat * 65536 + a.code * 512 + b.code * 4
  | .div d a b => d.toNat * 65536 + a.code * 512 + b.code * 4
  | .divu d a b => d.toNat * 65536 + a.code * 512 + b.code * 4
  | .rem d a b => d.toNat * 65536 + a.code * 512 + b.code * 4
  | .remu d a b => d.toNat * 65536 + a.code * 512 + b.code * 4
  | .andS d a b => d.toNat * 65536 + a.code * 512 + b.code * 4
  | .orS d a b => d.toNat * 65536 + a.code * 512 + b.code * 4
  | .xorS d a b => d.toNat * 65536 + a.code * 512 + b.code * 4
  | .andn d a b => d.toNat * 65536 + a.code * 512 + b.code * 4
  | .andi d a i => d.toNat * 65536 + a.code * 512 + i.toNat
  | .ori d a i => d.toNat * 65536 + a.code * 512 + i.toNat
  | .xori d a i => d.toNat * 65536 + a.code * 512 + i.toNat
  | .shl d a b => d.toNat * 65536 + a.code * 512 + b.code * 4
  | .shr d a b => d.toNat * 65536 + a.code * 512 + b.code * 4
  | .sar d a b => d.toNat * 65536 + a.code * 512 + b.code * 4
  | .shli d a i => d.toNat * 65536 + a.code * 512 + i.toNat
  | .shri d a i => d.toNat * 65536 + a.code * 512 + i.toNat
  | .sari d a i => d.toNat * 65536 + a.code * 512 + i.toNat
  | .clz d a => d.toNat * 65536 + a.code * 512
  | .ctz d a => d.toNat * 65536 + a.code * 512
  | .popc d a => d.toNat * 65536 + a.code * 512
  | .extr d a b => d.toNat * 65536 + a.code * 512 + b.code * 4
  | .extru d a b => d.toNat * 65536 + a.code * 512 + b.code * 4
  | .ins d a b => d.toNat * 65536 + a.code * 512 + b.code * 4
  | .minS d a b => d.toNat * 65536 + a.code * 512 + b.code * 4
  | .maxS d a b => d.toNat * 65536 + a.code * 512 + b.code * 4
  | .minu d a b => d.toNat * 65536 + a.code * 512 + b.code * 4
  | .maxu d a b => d.toNat * 65536 + a.code * 512 + b.code * 4
  | .movi d i => d.toNat * 65536 + i.toNat
  | .movhi d i => d.toNat * 65536 + i.toNat
  | .selP0P3 d a b p => d.toNat * 65536 + a.code * 512 + b.code * 4 + p.toNat
  | .selP4P7 d a b p => d.toNat * 65536 + a.code * 512 + b.code * 4 + p.toNat
  | .lea d a b h => d.toNat * 65536 + a.code * 512 + b.code * 4 + h.toNat
  | .cmp p c a b => p.toNat * 524288 + c.code * 65536 + a.code * 512 + b.code * 4
  | .cmpi p c a i => p.toNat * 524288 + c.code * 65536 + a.code * 512 + i.toNat
  | .pand p q r => p.toNat * 524288 + q.toNat * 65536 + r.toNat * 8192
  | .por p q r => p.toNat * 524288 + q.toNat * 65536 + r.toNat * 8192
  | .pxor p q r => p.toNat * 524288 + q.toNat * 65536 + r.toNat * 8192
  | .pnot p q => p.toNat * 524288 + q.toNat * 65536
  | .sfadd d a b => d.toNat * 65536 + a.code * 512 + b.code * 4
  | .sfmul d a b => d.toNat * 65536 + a.code * 512 + b.code * 4
  | .sfma d a b => d.toNat * 65536 + a.code * 512 + b.code * 4
  | .sfcvt d a f g u => d.toNat * 65536 + a.code * 512 + f.code * 32 + g.code * 2 + u.toNat
  | .nopV => 0
  | .vaddF32 d a b => d.code * 131072 + a.code * 512 + b.code * 2
  | .vsubF32 d a b => d.code * 131072 + a.code * 512 + b.code * 2
  | .vmulF32 d a b => d.code * 131072 + a.code * 512 + b.code * 2
  | .vfmaF32 d a b => d.toNat * 131072 + a.code * 512 + b.code * 2
  | .vfmsF32 d a b => d.toNat * 131072 + a.code * 512 + b.code * 2
  | .vmaxF32 d a b => d.code * 131072 + a.code * 512 + b.code * 2
  | .vminF32 d a b => d.code * 131072 + a.code * 512 + b.code * 2
  | .vabsF32 d a => d.code * 131072 + a.code * 512
  | .vnegF32 d a => d.code * 131072 + a.code * 512
  | .vaddBf16 d a b => d.code * 131072 + a.code * 512 + b.code * 2
  | .vmulBf16 d a b => d.code * 131072 + a.code * 512 + b.code * 2
  | .vfmaBf16 d a b => d.toNat * 131072 + a.code * 512 + b.code * 2
  | .vmaxBf16 d a b => d.code * 131072 + a.code * 512 + b.code * 2
  | .vminBf16 d a b => d.code * 131072 + a.code * 512 + b.code * 2
  | .vaddF16 d a b => d.code * 131072 + a.code * 512 + b.code * 2
  | .vmulF16 d a b => d.code * 131072 + a.code * 512 + b.code * 2
  | .vfmaF16 d a b => d.toNat * 131072 + a.code * 512 + b.code * 2
  | .vmaxF16 d a b => d.code * 131072 + a.code * 512 + b.code * 2
  | .vminF16 d a b => d.code * 131072 + a.code * 512 + b.code * 2
  | .vaddI32 d a b => d.code * 131072 + a.code * 512 + b.code * 2
  | .vsubI32 d a b => d.code * 131072 + a.code * 512 + b.code * 2
  | .vmulI32 d a b => d.code * 131072 + a.code * 512 + b.code * 2
  | .vmaxI32 d a b => d.code * 131072 + a.code * 512 + b.code * 2
  | .vminI32 d a b => d.code * 131072 + a.code * 512 + b.code * 2
  | .vandI32 d a b => d.code * 131072 + a.code * 512 + b.code * 2
  | .vorI32 d a b => d.code * 131072 + a.code * 512 + b.code * 2
  | .vxorI32 d a b => d.code * 131072 + a.code * 512 + b.code * 2
  | .vandnI32 d a b => d.code * 131072 + a.code * 512 + b.code * 2
  | .vshlI32 d a b => d.code * 131072 + a.code * 512 + b.code * 2
  | .vshrI32 d a b => d.code * 131072 + a.code * 512 + b.code * 2
  | .vsarI32 d a b => d.code * 131072 + a.code * 512 + b.code * 2
  | .vcmpEqF32 d a b => d.code * 131072 + a.code * 512 + b.code * 2
  | .vcmpLtF32 d a b => d.code * 131072 + a.code * 512 + b.code * 2
  | .vcmpLeF32 d a b => d.code * 131072 + a.code * 512 + b.code * 2
  | .vcmpEqI32 d a b => d.code * 131072 + a.code * 512 + b.code * 2
  | .vcmpLtI32 d a b => d.code * 131072 + a.code * 512 + b.code * 2
  | .vcmpLeI32 d a b => d.code * 131072 + a.code * 512 + b.code * 2
  | .vsel d a b => d.toNat * 131072 + a.code * 512 + b.code * 2
  | .vbcast d a => d.code * 131072 + a.code * 1024
  | .vmovs d a l => d.toNat * 131072 + a.code * 1024 + l.toNat * 8
  | .vidx d a => d.code * 131072 + a.code * 1024
  | .vcvt d a f g u => d.code * 131072 + a.code * 512 + f.code * 32 + g.code * 2 + u.toNat
  | .vrcpF32 d a => d.code * 131072 + a.code * 512
  | .vrsqF32 d a => d.code * 131072 + a.code * 512
  | .vexp2F32 d a => d.code * 131072 + a.code * 512
  | .vlog2F32 d a => d.code * 131072 + a.code * 512
  | .vtanhF32 d a => d.code * 131072 + a.code * 512
  | .vsigF32 d a => d.code * 131072 + a.code * 512
  | .vredAdd d a y => d.code * 131072 + a.code * 512 + y.toNat
  | .vredMax d a y => d.code * 131072 + a.code * 512 + y.toNat
  | .vredMin d a y => d.code * 131072 + a.code * 512 + y.toNat
  | .vscanAdd d a y => d.code * 131072 + a.code * 512 + y.toNat
  | .vshufLo d n a b => d.code * 131072 + n.toNat * 4096 + a.code * 64 + b.code
  | .vshufHi d n a b => d.code * 131072 + n.toNat * 4096 + a.code * 64 + b.code
  | .nopM => 0
  | .mpush p => p.toNat * 2097152
  | .mswap => 0
  | .macc p n q => p.toNat * 2097152 + n.toNat * 1048576 + q.toNat * 8192
  | .maccG n q a => n.toNat * 1048576 + q.toNat * 8192 + a.code * 32
  | .mdrain h n i d f u => h.code * 1048576 + n.toNat * 524288 + i.toNat * 4096 + d.code * 128 + f.code * 16 + u.toNat * 8
  | .mzero n f c => n.toNat * 2097152 + f.toNat * 16384 + c.toNat * 128
  | .mcfg a => a.code * 32768
  | .mrun s a l => s.toNat * 16384 + a.code * 128 + l.toNat
  | .playedBeat _ => 0
  | .nopL => 0
  | .lds d a i z => d.toNat * 65536 + a.code * 512 + i.toNat * 4 + z.code
  | .ldsS d a i z => d.toNat * 65536 + a.code * 512 + i.toNat * 4 + z.code
  | .sts a b i z => a.code * 32768 + b.code * 256 + i.toNat * 4 + z.code
  | .ldv d a i => d.code * 131072 + a.code * 1024 + i.toNat
  | .stv v a i => v.code * 16384 + a.code * 128 + i.toNat
  | .ld d a i z => d.toNat * 65536 + a.code * 512 + i.toNat * 4 + z.code
  | .ldS d a i z => d.toNat * 65536 + a.code * 512 + i.toNat * 4 + z.code
  | .lda d a i z => d.toNat * 65536 + a.code * 512 + i.toNat * 4 + z.code
  | .st a b i z => a.code * 32768 + b.code * 256 + i.toNat * 4 + z.code
  | .sta a b i z => a.code * 32768 + b.code * 256 + i.toNat * 4 + z.code
  | .loadCompletion _ _ _ => 0
  | .tld w a b d => w.code * 1048576 + a.code * 8192 + b.code * 64 + d.toNat
  | .tldRingClaim _ _ => 0
  | .tileLoadCompletion _ _ _ => 0
  | .tst a b d => 2097152 + a.code * 8192 + b.code * 64 + d.toNat
  | .tileStoreCompletion _ _ _ => 0
  | .ldsc a c => a.code * 32768 + c.toNat * 128
  | .amoAdd c o d a w => c.code * 524288 + o.code * 131072 + d.toNat * 2048 + a.code * 16 + w.toNat * 8
  | .amoAnd c o d a w => c.code * 524288 + o.code * 131072 + d.toNat * 2048 + a.code * 16 + w.toNat * 8
  | .amoOr c o d a w => c.code * 524288 + o.code * 131072 + d.toNat * 2048 + a.code * 16 + w.toNat * 8
  | .amoXor c o d a w => c.code * 524288 + o.code * 131072 + d.toNat * 2048 + a.code * 16 + w.toNat * 8
  | .amoMin c o d a w => c.code * 524288 + o.code * 131072 + d.toNat * 2048 + a.code * 16 + w.toNat * 8
  | .amoMax c o d a w => c.code * 524288 + o.code * 131072 + d.toNat * 2048 + a.code * 16 + w.toNat * 8
  | .amoXchg c o d a w => c.code * 524288 + o.code * 131072 + d.toNat * 2048 + a.code * 16 + w.toNat * 8
  | .amoCas c o d a w => c.code * 524288 + o.code * 131072 + d.toNat * 2048 + a.code * 16 + w.toNat * 8
  | .amoReply _ _ _ => 0
  | .phase a c k => a.code * 32768 + c.code * 4096 + k.code * 1024
  | .phaseAcquireAtHome _ _ => 0
  | .phaseReleaseRegistration _ _ => 0
  | .acq c => c.code * 524288
  | .rel c => c.code * 524288
  | .fence c => c.code * 524288
  | .nopC => 0
  | .cpost a b d => a.code * 32768 + b.code * 256 + d.toNat * 4
  | .cpostCompletion _ _ _ => 0
  | .gather v a b => v.code * 16384 + a.code * 128 + b.code
  | .scatter v a b => v.code * 16384 + a.code * 128 + b.code
  | .coll a b d => a.code * 32768 + b.code * 256 + d.toNat * 4
  | .tbinit a b => a.code * 32768 + b.code * 256
  | .tbarr a => a.code * 32768
  | .tbexp a b => a.code * 32768 + b.code * 256
  | .tbwait a b d => a.code * 32768 + b.code * 256 + d.toNat * 4
  | .parkApply _ => 0
  | .barrierUpdateArrival _ => 0
  | .plwait a p d => a.code * 32768 + p.toNat * 2048 + d.toNat * 32
  | .plread a d => a.code * 32768 + d.toNat * 512
  | .plcancel a => a.code * 32768
  | .nxt a => a.code * 32768
  | .pmovS o a => o.toNat * 16384 + a.code * 128
  | .pmovV o v => o.toNat * 16384 + v.code * 64
  | .pget d o => d.toNat * 65536 + o.toNat * 256
  | .lddt n a d => n.toNat * 524288 + a.code * 4096 + d.toNat * 64
  | .lddtCompletion _ _ _ => 0
  | .cbld c a => c.toNat * 262144 + a.code * 2048
  | .cbst c a => c.toNat * 262144 + a.code * 2048
  | .cbget d c => d.toNat * 131072 + c.toNat * 8192
  | .cbput c v => c.toNat * 262144 + v.code * 1024
  | .vpld e a => e.toNat * 65536 + a.code * 512
  | .mbld s a n => s.toNat * 16384 + a.code * 128 + n.toNat
  | .cbuDedup _ _ => 0
  | .cbuRemap _ _ => 0
  | .cbuPair _ _ => 0
  | .cbuExpand _ _ => 0
  | .rcuRun _ _ => 0
  | .htbBuild _ _ => 0
  | .nopB => 0
  | .pbr n a => n.toNat * 524288 + a.code * 4096
  | .pbri n i => n.toNat * 524288 + i.toNat
  | .br n q g => n.toNat * 524288 + q.toNat * 65536 + g.toNat * 32768
  | .call n q g => n.toNat * 524288 + q.toNat * 65536 + g.toNat * 32768
  | .ret q g => q.toNat * 65536 + g.toNat * 32768
  | .pmark => 0
  | .suspend => 0
  | .endB => 0
  | .nopX => 0
  | .trap i => i.toNat
  | .reti => 0
  | .uret => 0
  | .crd d n => d.toNat * 65536 + n.toNat * 16
  | .cwr a n => a.code * 32768 + n.toNat * 8
  | .arrsave => 0
  | .arrrest => 0
  | .setpool a d => a.code * 32768 + d.toNat * 512
  | .setpoolConversion _ => 0
  | .tlbinv a k => a.code * 32768 + k.code * 4096
  | .cwb a k => a.code * 32768 + k.code * 4096
  | .cinv a k => a.code * 32768 + k.code * 4096
  | .wfe => 0
  | .supervisorTrapEntry _ _ => 0
  | .userInterruptEntry _ _ => 0
  | .switchOnStall _ => 0
  | .switchQuantumExpiry _ => 0
  | .preemptionRequest _ => 0
  | .heavyPreemption _ _ => 0
  | .itemKill _ _ => 0
  | .timerExpiry _ _ => 0
  | .noticeWrite _ _ => 0
  | .cpreqWrite _ _ => 0
  | .launchTake _ _ => 0
  | .recordCreate _ => 0
  | .recordPickup _ => 0
  | .recordAging _ => 0
  | .recordSteal _ => 0
  | .dispenserBatchRequest _ _ _ => 0
  | .dispenserBatchReturn _ _ => 0
  | .dispenserExhaustion _ _ => 0
  | .packetTake _ _ => 0
  | .packetCompletion _ => 0
  | .transformCompletion _ => 0
  | .gatherRow _ _ => 0
  | .scatterRow _ _ => 0
  | .collectiveAnnounce _ => 0
  | .planeLanding _ => 0
  | .relayForward _ => 0
  | .cancelUpstream _ => 0
  | .truncation _ => 0
  | .errorNotice _ => 0
  | .decoderSegmentDecode _ => 0
  | .pageWalk _ _ => 0
  | .pagePromotion _ => 0
  | .pageDemotion _ => 0
  | .migrationCopy _ => 0
  | .epochHalving _ => 0
  | .allocatingWriteResume _ => 0
  | .extentReleaseRequest _ _ => 0
  | .forcedExtentRemoval _ _ => 0
  | .prefetchRequestServe _ => 0
  | .chunkAddWrite _ _ => 0
  | .chunkRsvWrite _ _ => 0
  | .frameAddWrite _ _ => 0
  | .hwbaseWrite _ _ => 0
  | .configRegisterWrite _ _ _ _ => 0
  | .hostMemoryWrite _ _ _ => 0
  | .hostMemoryRead _ _ _ => 0
  | .hostAtomicopFetchadd _ _ _ => 0
  | .hostAtomicopSwap _ _ _ => 0
  | .hostAtomicopCas _ _ _ _ => 0
  | .causewayAccess _ _ _ _ _ => 0
  | .packageReset => 0
  | .virtualDeviceReset _ => 0
  | .clusterReassignment _ _ => 0
  | .attestationRequest _ _ => 0
  | .readTelemetry => 0
  | .polrumAttest _ => 0
  | .writeImageSlot _ _ => 0
  | .raiseFloor _ => 0
  | .polrumPackageReset => 0
  | .readErrorLog _ => 0
  | .thermalStep _ _ => 0
  | .thermalTrip _ _ => 0
  | .scaleQueueFill _ => 0
  | .writeBackArrival _ _ => 0
  | .systemCoreStore _ _ => 0
  | .extentGrant _ _ => 0

/-- Bits 30:0 of the word of a slot instruction (R36); an event has no word. -/
def encode (i : Instr) : Option Nat :=
  match i.opcode with
  | some (c, o) => some (c * 268435456 + o * 4194304 + i.operands)
  | none => none

/-- The OP values of class S (R57-R66). -/
def rawDecodeS (w : Nat) : Option Instr :=
    match fld w 27 22 with
    | 0 => some (.nopS)
    | 1 => some (.add (BitVec.ofNat 6 (fld w 21 16)) (SSrc.ofCode (fld w 15 9)) (SSrc.ofCode (fld w 8 2)))
    | 2 => some (.sub (BitVec.ofNat 6 (fld w 21 16)) (SSrc.ofCode (fld w 15 9)) (SSrc.ofCode (fld w 8 2)))
    | 3 => some (.addi (BitVec.ofNat 6 (fld w 21 16)) (SSrc.ofCode (fld w 15 9)) (BitVec.ofNat 9 (fld w 8 0)))
    | 4 => some (.mul (BitVec.ofNat 6 (fld w 21 16)) (SSrc.ofCode (fld w 15 9)) (SSrc.ofCode (fld w 8 2)))
    | 5 => some (.mulh (BitVec.ofNat 6 (fld w 21 16)) (SSrc.ofCode (fld w 15 9)) (SSrc.ofCode (fld w 8 2)))
    | 6 => some (.mulhu (BitVec.ofNat 6 (fld w 21 16)) (SSrc.ofCode (fld w 15 9)) (SSrc.ofCode (fld w 8 2)))
    | 7 => some (.div (BitVec.ofNat 6 (fld w 21 16)) (SSrc.ofCode (fld w 15 9)) (SSrc.ofCode (fld w 8 2)))
    | 8 => some (.divu (BitVec.ofNat 6 (fld w 21 16)) (SSrc.ofCode (fld w 15 9)) (SSrc.ofCode (fld w 8 2)))
    | 9 => some (.rem (BitVec.ofNat 6 (fld w 21 16)) (SSrc.ofCode (fld w 15 9)) (SSrc.ofCode (fld w 8 2)))
    | 10 => some (.remu (BitVec.ofNat 6 (fld w 21 16)) (SSrc.ofCode (fld w 15 9)) (SSrc.ofCode (fld w 8 2)))
    | 11 => some (.andS (BitVec.ofNat 6 (fld w 21 16)) (SSrc.ofCode (fld w 15 9)) (SSrc.ofCode (fld w 8 2)))
    | 12 => some (.orS (BitVec.ofNat 6 (fld w 21 16)) (SSrc.ofCode (fld w 15 9)) (SSrc.ofCode (fld w 8 2)))
    | 13 => some (.xorS (BitVec.ofNat 6 (fld w 21 16)) (SSrc.ofCode (fld w 15 9)) (SSrc.ofCode (fld w 8 2)))
    | 14 => some (.andn (BitVec.ofNat 6 (fld w 21 16)) (SSrc.ofCode (fld w 15 9)) (SSrc.ofCode (fld w 8 2)))
    | 15 => some (.andi (BitVec.ofNat 6 (fld w 21 16)) (SSrc.ofCode (fld w 15 9)) (BitVec.ofNat 9 (fld w 8 0)))
    | 16 => some (.ori (BitVec.ofNat 6 (fld w 21 16)) (SSrc.ofCode (fld w 15 9)) (BitVec.ofNat 9 (fld w 8 0)))
    | 17 => some (.xori (BitVec.ofNat 6 (fld w 21 16)) (SSrc.ofCode (fld w 15 9)) (BitVec.ofNat 9 (fld w 8 0)))
    | 18 => some (.shl (BitVec.ofNat 6 (fld w 21 16)) (SSrc.ofCode (fld w 15 9)) (SSrc.ofCode (fld w 8 2)))
    | 19 => some (.shr (BitVec.ofNat 6 (fld w 21 16)) (SSrc.ofCode (fld w 15 9)) (SSrc.ofCode (fld w 8 2)))
    | 20 => some (.sar (BitVec.ofNat 6 (fld w 21 16)) (SSrc.ofCode (fld w 15 9)) (SSrc.ofCode (fld w 8 2)))
    | 21 => some (.shli (BitVec.ofNat 6 (fld w 21 16)) (SSrc.ofCode (fld w 15 9)) (BitVec.ofNat 6 (fld w 5 0)))
    | 22 => some (.shri (BitVec.ofNat 6 (fld w 21 16)) (SSrc.ofCode (fld w 15 9)) (BitVec.ofNat 6 (fld w 5 0)))
    | 23 => some (.sari (BitVec.ofNat 6 (fld w 21 16)) (SSrc.ofCode (fld w 15 9)) (BitVec.ofNat 6 (fld w 5 0)))
    | 24 => some (.clz (BitVec.ofNat 6 (fld w 21 16)) (SSrc.ofCode (fld w 15 9)))
    | 25 => some (.ctz (BitVec.ofNat 6 (fld w 21 16)) (SSrc.ofCode (fld w 15 9)))
    | 26 => some (.popc (BitVec.ofNat 6 (fld w 21 16)) (SSrc.ofCode (fld w 15 9)))
    | 27 => some (.extr (BitVec.ofNat 6 (fld w 21 16)) (SSrc.ofCode (fld w 15 9)) (SSrc.ofCode (fld w 8 2)))
    | 28 => some (.extru (BitVec.ofNat 6 (fld w 21 16)) (SSrc.ofCode (fld w 15 9)) (SSrc.ofCode (fld w 8 2)))
    | 29 => some (.ins (BitVec.ofNat 6 (fld w 21 16)) (SSrc.ofCode (fld w 15 9)) (SSrc.ofCode (fld w 8 2)))
    | 30 => some (.minS (BitVec.ofNat 6 (fld w 21 16)) (SSrc.ofCode (fld w 15 9)) (SSrc.ofCode (fld w 8 2)))
    | 31 => some (.maxS (BitVec.ofNat 6 (fld w 21 16)) (SSrc.ofCode (fld w 15 9)) (SSrc.ofCode (fld w 8 2)))
    | 32 => some (.minu (BitVec.ofNat 6 (fld w 21 16)) (SSrc.ofCode (fld w 15 9)) (SSrc.ofCode (fld w 8 2)))
    | 33 => some (.maxu (BitVec.ofNat 6 (fld w 21 16)) (SSrc.ofCode (fld w 15 9)) (SSrc.ofCode (fld w 8 2)))
    | 34 => some (.movi (BitVec.ofNat 6 (fld w 21 16)) (BitVec.ofNat 16 (fld w 15 0)))
    | 35 => some (.movhi (BitVec.ofNat 6 (fld w 21 16)) (BitVec.ofNat 16 (fld w 15 0)))
    | 36 => some (.selP0P3 (BitVec.ofNat 6 (fld w 21 16)) (SSrc.ofCode (fld w 15 9)) (SSrc.ofCode (fld w 8 2)) (BitVec.ofNat 2 (fld w 1 0)))
    | 37 => some (.selP4P7 (BitVec.ofNat 6 (fld w 21 16)) (SSrc.ofCode (fld w 15 9)) (SSrc.ofCode (fld w 8 2)) (BitVec.ofNat 2 (fld w 1 0)))
    | 38 => some (.lea (BitVec.ofNat 6 (fld w 21 16)) (SSrc.ofCode (fld w 15 9)) (SSrc.ofCode (fld w 8 2)) (BitVec.ofNat 2 (fld w 1 0)))
    | 39 => some (.cmp (BitVec.ofNat 3 (fld w 21 19)) (Cond.ofCode (fld w 18 16)) (SSrc.ofCode (fld w 15 9)) (SSrc.ofCode (fld w 8 2)))
    | 40 => some (.cmpi (BitVec.ofNat 3 (fld w 21 19)) (Cond.ofCode (fld w 18 16)) (SSrc.ofCode (fld w 15 9)) (BitVec.ofNat 9 (fld w 8 0)))
    | 41 => some (.pand (BitVec.ofNat 3 (fld w 21 19)) (BitVec.ofNat 3 (fld w 18 16)) (BitVec.ofNat 3 (fld w 15 13)))
    | 42 => some (.por (BitVec.ofNat 3 (fld w 21 19)) (BitVec.ofNat 3 (fld w 18 16)) (BitVec.ofNat 3 (fld w 15 13)))
    | 43 => some (.pxor (BitVec.ofNat 3 (fld w 21 19)) (BitVec.ofNat 3 (fld w 18 16)) (BitVec.ofNat 3 (fld w 15 13)))
    | 44 => some (.pnot (BitVec.ofNat 3 (fld w 21 19)) (BitVec.ofNat 3 (fld w 18 16)))
    | 45 => some (.sfadd (BitVec.ofNat 6 (fld w 21 16)) (SSrc.ofCode (fld w 15 9)) (SSrc.ofCode (fld w 8 2)))
    | 46 => some (.sfmul (BitVec.ofNat 6 (fld w 21 16)) (SSrc.ofCode (fld w 15 9)) (SSrc.ofCode (fld w 8 2)))
    | 47 => some (.sfma (BitVec.ofNat 6 (fld w 21 16)) (SSrc.ofCode (fld w 15 9)) (SSrc.ofCode (fld w 8 2)))
    | 48 => some (.sfcvt (BitVec.ofNat 6 (fld w 21 16)) (SSrc.ofCode (fld w 15 9)) (CvtFmt.ofCode (fld w 8 5)) (CvtFmt.ofCode (fld w 4 1)) (Nat.beq (fld w 0 0) 1))
    | _ => none

/-- The OP values of class V (R57-R66). -/
def rawDecodeV (w : Nat) : Option Instr :=
    match fld w 27 22 with
    | 0 => some (.nopV)
    | 1 => some (.vaddF32 (VDst.ofCode (fld w 21 17)) (VSrc.ofCode (fld w 16 9)) (VSrc.ofCode (fld w 8 1)))
    | 2 => some (.vsubF32 (VDst.ofCode (fld w 21 17)) (VSrc.ofCode (fld w 16 9)) (VSrc.ofCode (fld w 8 1)))
    | 3 => some (.vmulF32 (VDst.ofCode (fld w 21 17)) (VSrc.ofCode (fld w 16 9)) (VSrc.ofCode (fld w 8 1)))
    | 4 => some (.vfmaF32 (BitVec.ofNat 4 (fld w 21 17)) (VSrc.ofCode (fld w 16 9)) (VSrc.ofCode (fld w 8 1)))
    | 5 => some (.vfmsF32 (BitVec.ofNat 4 (fld w 21 17)) (VSrc.ofCode (fld w 16 9)) (VSrc.ofCode (fld w 8 1)))
    | 6 => some (.vmaxF32 (VDst.ofCode (fld w 21 17)) (VSrc.ofCode (fld w 16 9)) (VSrc.ofCode (fld w 8 1)))
    | 7 => some (.vminF32 (VDst.ofCode (fld w 21 17)) (VSrc.ofCode (fld w 16 9)) (VSrc.ofCode (fld w 8 1)))
    | 8 => some (.vabsF32 (VDst.ofCode (fld w 21 17)) (VSrc.ofCode (fld w 16 9)))
    | 9 => some (.vnegF32 (VDst.ofCode (fld w 21 17)) (VSrc.ofCode (fld w 16 9)))
    | 10 => some (.vaddBf16 (VDst.ofCode (fld w 21 17)) (VSrc.ofCode (fld w 16 9)) (VSrc.ofCode (fld w 8 1)))
    | 11 => some (.vmulBf16 (VDst.ofCode (fld w 21 17)) (VSrc.ofCode (fld w 16 9)) (VSrc.ofCode (fld w 8 1)))
    | 12 => some (.vfmaBf16 (BitVec.ofNat 4 (fld w 21 17)) (VSrc.ofCode (fld w 16 9)) (VSrc.ofCode (fld w 8 1)))
    | 13 => some (.vmaxBf16 (VDst.ofCode (fld w 21 17)) (VSrc.ofCode (fld w 16 9)) (VSrc.ofCode (fld w 8 1)))
    | 14 => some (.vminBf16 (VDst.ofCode (fld w 21 17)) (VSrc.ofCode (fld w 16 9)) (VSrc.ofCode (fld w 8 1)))
    | 15 => some (.vaddF16 (VDst.ofCode (fld w 21 17)) (VSrc.ofCode (fld w 16 9)) (VSrc.ofCode (fld w 8 1)))
    | 16 => some (.vmulF16 (VDst.ofCode (fld w 21 17)) (VSrc.ofCode (fld w 16 9)) (VSrc.ofCode (fld w 8 1)))
    | 17 => some (.vfmaF16 (BitVec.ofNat 4 (fld w 21 17)) (VSrc.ofCode (fld w 16 9)) (VSrc.ofCode (fld w 8 1)))
    | 18 => some (.vmaxF16 (VDst.ofCode (fld w 21 17)) (VSrc.ofCode (fld w 16 9)) (VSrc.ofCode (fld w 8 1)))
    | 19 => some (.vminF16 (VDst.ofCode (fld w 21 17)) (VSrc.ofCode (fld w 16 9)) (VSrc.ofCode (fld w 8 1)))
    | 20 => some (.vaddI32 (VDst.ofCode (fld w 21 17)) (VSrc.ofCode (fld w 16 9)) (VSrc.ofCode (fld w 8 1)))
    | 21 => some (.vsubI32 (VDst.ofCode (fld w 21 17)) (VSrc.ofCode (fld w 16 9)) (VSrc.ofCode (fld w 8 1)))
    | 22 => some (.vmulI32 (VDst.ofCode (fld w 21 17)) (VSrc.ofCode (fld w 16 9)) (VSrc.ofCode (fld w 8 1)))
    | 23 => some (.vmaxI32 (VDst.ofCode (fld w 21 17)) (VSrc.ofCode (fld w 16 9)) (VSrc.ofCode (fld w 8 1)))
    | 24 => some (.vminI32 (VDst.ofCode (fld w 21 17)) (VSrc.ofCode (fld w 16 9)) (VSrc.ofCode (fld w 8 1)))
    | 25 => some (.vandI32 (VDst.ofCode (fld w 21 17)) (VSrc.ofCode (fld w 16 9)) (VSrc.ofCode (fld w 8 1)))
    | 26 => some (.vorI32 (VDst.ofCode (fld w 21 17)) (VSrc.ofCode (fld w 16 9)) (VSrc.ofCode (fld w 8 1)))
    | 27 => some (.vxorI32 (VDst.ofCode (fld w 21 17)) (VSrc.ofCode (fld w 16 9)) (VSrc.ofCode (fld w 8 1)))
    | 28 => some (.vandnI32 (VDst.ofCode (fld w 21 17)) (VSrc.ofCode (fld w 16 9)) (VSrc.ofCode (fld w 8 1)))
    | 29 => some (.vshlI32 (VDst.ofCode (fld w 21 17)) (VSrc.ofCode (fld w 16 9)) (VSrc.ofCode (fld w 8 1)))
    | 30 => some (.vshrI32 (VDst.ofCode (fld w 21 17)) (VSrc.ofCode (fld w 16 9)) (VSrc.ofCode (fld w 8 1)))
    | 31 => some (.vsarI32 (VDst.ofCode (fld w 21 17)) (VSrc.ofCode (fld w 16 9)) (VSrc.ofCode (fld w 8 1)))
    | 32 => some (.vcmpEqF32 (VDst.ofCode (fld w 21 17)) (VSrc.ofCode (fld w 16 9)) (VSrc.ofCode (fld w 8 1)))
    | 33 => some (.vcmpLtF32 (VDst.ofCode (fld w 21 17)) (VSrc.ofCode (fld w 16 9)) (VSrc.ofCode (fld w 8 1)))
    | 34 => some (.vcmpLeF32 (VDst.ofCode (fld w 21 17)) (VSrc.ofCode (fld w 16 9)) (VSrc.ofCode (fld w 8 1)))
    | 35 => some (.vcmpEqI32 (VDst.ofCode (fld w 21 17)) (VSrc.ofCode (fld w 16 9)) (VSrc.ofCode (fld w 8 1)))
    | 36 => some (.vcmpLtI32 (VDst.ofCode (fld w 21 17)) (VSrc.ofCode (fld w 16 9)) (VSrc.ofCode (fld w 8 1)))
    | 37 => some (.vcmpLeI32 (VDst.ofCode (fld w 21 17)) (VSrc.ofCode (fld w 16 9)) (VSrc.ofCode (fld w 8 1)))
    | 38 => some (.vsel (BitVec.ofNat 4 (fld w 21 17)) (VSrc.ofCode (fld w 16 9)) (VSrc.ofCode (fld w 8 1)))
    | 39 => some (.vbcast (VDst.ofCode (fld w 21 17)) (SSrc.ofCode (fld w 16 10)))
    | 40 => some (.vmovs (BitVec.ofNat 4 (fld w 21 17)) (SSrc.ofCode (fld w 16 10)) (BitVec.ofNat 7 (fld w 9 3)))
    | 41 => some (.vidx (VDst.ofCode (fld w 21 17)) (SSrc.ofCode (fld w 16 10)))
    | 42 => some (.vcvt (VDst.ofCode (fld w 21 17)) (VSrc.ofCode (fld w 16 9)) (CvtFmt.ofCode (fld w 8 5)) (CvtFmt.ofCode (fld w 4 1)) (Nat.beq (fld w 0 0) 1))
    | 43 => some (.vrcpF32 (VDst.ofCode (fld w 21 17)) (VSrc.ofCode (fld w 16 9)))
    | 44 => some (.vrsqF32 (VDst.ofCode (fld w 21 17)) (VSrc.ofCode (fld w 16 9)))
    | 45 => some (.vexp2F32 (VDst.ofCode (fld w 21 17)) (VSrc.ofCode (fld w 16 9)))
    | 46 => some (.vlog2F32 (VDst.ofCode (fld w 21 17)) (VSrc.ofCode (fld w 16 9)))
    | 47 => some (.vtanhF32 (VDst.ofCode (fld w 21 17)) (VSrc.ofCode (fld w 16 9)))
    | 48 => some (.vsigF32 (VDst.ofCode (fld w 21 17)) (VSrc.ofCode (fld w 16 9)))
    | 49 => some (.vredAdd (VDst.ofCode (fld w 21 17)) (VSrc.ofCode (fld w 16 9)) (Nat.beq (fld w 0 0) 1))
    | 50 => some (.vredMax (VDst.ofCode (fld w 21 17)) (VSrc.ofCode (fld w 16 9)) (Nat.beq (fld w 0 0) 1))
    | 51 => some (.vredMin (VDst.ofCode (fld w 21 17)) (VSrc.ofCode (fld w 16 9)) (Nat.beq (fld w 0 0) 1))
    | 52 => some (.vscanAdd (VDst.ofCode (fld w 21 17)) (VSrc.ofCode (fld w 16 9)) (Nat.beq (fld w 0 0) 1))
    | 53 => some (.vshufLo (VDst.ofCode (fld w 21 17)) (BitVec.ofNat 5 (fld w 16 12)) (VShort.ofCode (fld w 11 6)) (VShort.ofCode (fld w 5 0)))
    | 54 => some (.vshufHi (VDst.ofCode (fld w 21 17)) (BitVec.ofNat 5 (fld w 16 12)) (VShort.ofCode (fld w 11 6)) (VShort.ofCode (fld w 5 0)))
    | _ => none

/-- The OP values of class M (R57-R66). -/
def rawDecodeM (w : Nat) : Option Instr :=
    match fld w 27 22 with
    | 0 => some (.nopM)
    | 1 => some (.mpush (Nat.beq (fld w 21 21) 1))
    | 2 => some (.mswap)
    | 3 => some (.macc (Nat.beq (fld w 21 21) 1) (Nat.beq (fld w 20 20) 1) (BitVec.ofNat 7 (fld w 19 13)))
    | 4 => some (.maccG (Nat.beq (fld w 20 20) 1) (BitVec.ofNat 7 (fld w 19 13)) (VSrc.ofCode (fld w 12 5)))
    | 5 => some (.mdrain (Shape.ofCode (fld w 21 20)) (Nat.beq (fld w 19 19) 1) (BitVec.ofNat 7 (fld w 18 12)) (VDst.ofCode (fld w 11 7)) (CvtFmt.ofCode (fld w 6 4)) (Nat.beq (fld w 3 3) 1))
    | 6 => some (.mzero (Nat.beq (fld w 21 21) 1) (BitVec.ofNat 7 (fld w 20 14)) (BitVec.ofNat 7 (fld w 13 7)))
    | 7 => some (.mcfg (SSrc.ofCode (fld w 21 15)))
    | 8 => some (.mrun (BitVec.ofNat 8 (fld w 21 14)) (SSrc.ofCode (fld w 13 7)) (BitVec.ofNat 7 (fld w 6 0)))
    | _ => none

/-- The OP values of class L (R57-R66). -/
def rawDecodeL (w : Nat) : Option Instr :=
    match fld w 27 22 with
    | 0 => some (.nopL)
    | 1 => some (.lds (BitVec.ofNat 6 (fld w 21 16)) (SSrc.ofCode (fld w 15 9)) (BitVec.ofNat 7 (fld w 8 2)) (Size.ofCode (fld w 1 0)))
    | 2 => some (.ldsS (BitVec.ofNat 6 (fld w 21 16)) (SSrc.ofCode (fld w 15 9)) (BitVec.ofNat 7 (fld w 8 2)) (Size.ofCode (fld w 1 0)))
    | 3 => some (.sts (SSrc.ofCode (fld w 21 15)) (SSrc.ofCode (fld w 14 8)) (BitVec.ofNat 6 (fld w 7 2)) (Size.ofCode (fld w 1 0)))
    | 4 => some (.ldv (VDst.ofCode (fld w 21 17)) (SSrc.ofCode (fld w 16 10)) (BitVec.ofNat 10 (fld w 9 0)))
    | 5 => some (.stv (VSrc.ofCode (fld w 21 14)) (SSrc.ofCode (fld w 13 7)) (BitVec.ofNat 7 (fld w 6 0)))
    | 6 => some (.ld (BitVec.ofNat 6 (fld w 21 16)) (SSrc.ofCode (fld w 15 9)) (BitVec.ofNat 7 (fld w 8 2)) (Size.ofCode (fld w 1 0)))
    | 7 => some (.ldS (BitVec.ofNat 6 (fld w 21 16)) (SSrc.ofCode (fld w 15 9)) (BitVec.ofNat 7 (fld w 8 2)) (Size.ofCode (fld w 1 0)))
    | 8 => some (.lda (BitVec.ofNat 6 (fld w 21 16)) (SSrc.ofCode (fld w 15 9)) (BitVec.ofNat 7 (fld w 8 2)) (Size.ofCode (fld w 1 0)))
    | 9 => some (.st (SSrc.ofCode (fld w 21 15)) (SSrc.ofCode (fld w 14 8)) (BitVec.ofNat 6 (fld w 7 2)) (Size.ofCode (fld w 1 0)))
    | 10 => some (.sta (SSrc.ofCode (fld w 21 15)) (SSrc.ofCode (fld w 14 8)) (BitVec.ofNat 6 (fld w 7 2)) (Size.ofCode (fld w 1 0)))
    | 11 => some (.tld (TldWhere.ofCode (fld w 21 20)) (SSrc.ofCode (fld w 19 13)) (SSrc.ofCode (fld w 12 6)) (BitVec.ofNat 6 (fld w 5 0)))
    | 12 => some (.tst (SSrc.ofCode (fld w 19 13)) (SSrc.ofCode (fld w 12 6)) (BitVec.ofNat 6 (fld w 5 0)))
    | 13 => some (.ldsc (SSrc.ofCode (fld w 21 15)) (BitVec.ofNat 8 (fld w 14 7)))
    | 14 => some (.amoAdd (Scope.ofCode (fld w 21 19)) (AmoOrder.ofCode (fld w 18 17)) (BitVec.ofNat 6 (fld w 16 11)) (SSrc.ofCode (fld w 10 4)) (Nat.beq (fld w 3 3) 1))
    | 15 => some (.amoAnd (Scope.ofCode (fld w 21 19)) (AmoOrder.ofCode (fld w 18 17)) (BitVec.ofNat 6 (fld w 16 11)) (SSrc.ofCode (fld w 10 4)) (Nat.beq (fld w 3 3) 1))
    | 16 => some (.amoOr (Scope.ofCode (fld w 21 19)) (AmoOrder.ofCode (fld w 18 17)) (BitVec.ofNat 6 (fld w 16 11)) (SSrc.ofCode (fld w 10 4)) (Nat.beq (fld w 3 3) 1))
    | 17 => some (.amoXor (Scope.ofCode (fld w 21 19)) (AmoOrder.ofCode (fld w 18 17)) (BitVec.ofNat 6 (fld w 16 11)) (SSrc.ofCode (fld w 10 4)) (Nat.beq (fld w 3 3) 1))
    | 18 => some (.amoMin (Scope.ofCode (fld w 21 19)) (AmoOrder.ofCode (fld w 18 17)) (BitVec.ofNat 6 (fld w 16 11)) (SSrc.ofCode (fld w 10 4)) (Nat.beq (fld w 3 3) 1))
    | 19 => some (.amoMax (Scope.ofCode (fld w 21 19)) (AmoOrder.ofCode (fld w 18 17)) (BitVec.ofNat 6 (fld w 16 11)) (SSrc.ofCode (fld w 10 4)) (Nat.beq (fld w 3 3) 1))
    | 20 => some (.amoXchg (Scope.ofCode (fld w 21 19)) (AmoOrder.ofCode (fld w 18 17)) (BitVec.ofNat 6 (fld w 16 11)) (SSrc.ofCode (fld w 10 4)) (Nat.beq (fld w 3 3) 1))
    | 21 => some (.amoCas (Scope.ofCode (fld w 21 19)) (AmoOrder.ofCode (fld w 18 17)) (BitVec.ofNat 6 (fld w 16 11)) (SSrc.ofCode (fld w 10 4)) (Nat.beq (fld w 3 3) 1))
    | 22 => some (.phase (SSrc.ofCode (fld w 21 15)) (Scope.ofCode (fld w 14 12)) (PhaseKind.ofCode (fld w 11 10)))
    | 23 => some (.acq (Scope.ofCode (fld w 21 19)))
    | 24 => some (.rel (Scope.ofCode (fld w 21 19)))
    | 25 => some (.fence (Scope.ofCode (fld w 21 19)))
    | _ => none

/-- The OP values of class C (R57-R66). -/
def rawDecodeC (w : Nat) : Option Instr :=
    match fld w 27 22 with
    | 0 => some (.nopC)
    | 1 => some (.cpost (SSrc.ofCode (fld w 21 15)) (SSrc.ofCode (fld w 14 8)) (BitVec.ofNat 6 (fld w 7 2)))
    | 2 => some (.gather (VSrc.ofCode (fld w 21 14)) (SSrc.ofCode (fld w 13 7)) (SSrc.ofCode (fld w 6 0)))
    | 3 => some (.scatter (VSrc.ofCode (fld w 21 14)) (SSrc.ofCode (fld w 13 7)) (SSrc.ofCode (fld w 6 0)))
    | 4 => some (.coll (SSrc.ofCode (fld w 21 15)) (SSrc.ofCode (fld w 14 8)) (BitVec.ofNat 6 (fld w 7 2)))
    | 5 => some (.tbinit (SSrc.ofCode (fld w 21 15)) (SSrc.ofCode (fld w 14 8)))
    | 6 => some (.tbarr (SSrc.ofCode (fld w 21 15)))
    | 7 => some (.tbexp (SSrc.ofCode (fld w 21 15)) (SSrc.ofCode (fld w 14 8)))
    | 8 => some (.tbwait (SSrc.ofCode (fld w 21 15)) (SSrc.ofCode (fld w 14 8)) (BitVec.ofNat 6 (fld w 7 2)))
    | 9 => some (.plwait (SSrc.ofCode (fld w 21 15)) (BitVec.ofNat 4 (fld w 14 11)) (BitVec.ofNat 6 (fld w 10 5)))
    | 10 => some (.plread (SSrc.ofCode (fld w 21 15)) (BitVec.ofNat 6 (fld w 14 9)))
    | 11 => some (.plcancel (SSrc.ofCode (fld w 21 15)))
    | 12 => some (.nxt (SSrc.ofCode (fld w 21 15)))
    | 13 => some (.pmovS (BitVec.ofNat 8 (fld w 21 14)) (SSrc.ofCode (fld w 13 7)))
    | 14 => some (.pmovV (BitVec.ofNat 8 (fld w 21 14)) (VSrc.ofCode (fld w 13 6)))
    | 15 => some (.pget (BitVec.ofNat 6 (fld w 21 16)) (BitVec.ofNat 8 (fld w 15 8)))
    | 16 => some (.lddt (BitVec.ofNat 3 (fld w 21 19)) (SSrc.ofCode (fld w 18 12)) (BitVec.ofNat 6 (fld w 11 6)))
    | 17 => some (.cbld (BitVec.ofNat 4 (fld w 21 18)) (SSrc.ofCode (fld w 17 11)))
    | 18 => some (.cbst (BitVec.ofNat 4 (fld w 21 18)) (SSrc.ofCode (fld w 17 11)))
    | 19 => some (.cbget (BitVec.ofNat 4 (fld w 21 17)) (BitVec.ofNat 4 (fld w 16 13)))
    | 20 => some (.cbput (BitVec.ofNat 4 (fld w 21 18)) (VSrc.ofCode (fld w 17 10)))
    | 21 => some (.vpld (BitVec.ofNat 6 (fld w 21 16)) (SSrc.ofCode (fld w 15 9)))
    | 22 => some (.mbld (BitVec.ofNat 8 (fld w 21 14)) (SSrc.ofCode (fld w 13 7)) (BitVec.ofNat 7 (fld w 6 0)))
    | _ => none

/-- The OP values of class B (R57-R66). -/
def rawDecodeB (w : Nat) : Option Instr :=
    match fld w 27 22 with
    | 0 => some (.nopB)
    | 1 => some (.pbr (BitVec.ofNat 3 (fld w 21 19)) (SSrc.ofCode (fld w 18 12)))
    | 2 => some (.pbri (BitVec.ofNat 3 (fld w 21 19)) (BitVec.ofNat 19 (fld w 18 0)))
    | 3 => some (.br (BitVec.ofNat 3 (fld w 21 19)) (BitVec.ofNat 3 (fld w 18 16)) (Nat.beq (fld w 15 15) 1))
    | 4 => some (.call (BitVec.ofNat 3 (fld w 21 19)) (BitVec.ofNat 3 (fld w 18 16)) (Nat.beq (fld w 15 15) 1))
    | 5 => some (.ret (BitVec.ofNat 3 (fld w 18 16)) (Nat.beq (fld w 15 15) 1))
    | 6 => some (.pmark)
    | 7 => some (.suspend)
    | 8 => some (.endB)
    | _ => none

/-- The OP values of class X (R57-R66). -/
def rawDecodeX (w : Nat) : Option Instr :=
    match fld w 27 22 with
    | 0 => some (.nopX)
    | 1 => some (.trap (BitVec.ofNat 16 (fld w 15 0)))
    | 2 => some (.reti)
    | 3 => some (.uret)
    | 4 => some (.crd (BitVec.ofNat 6 (fld w 21 16)) (BitVec.ofNat 12 (fld w 15 4)))
    | 5 => some (.cwr (SSrc.ofCode (fld w 21 15)) (BitVec.ofNat 12 (fld w 14 3)))
    | 6 => some (.arrsave)
    | 7 => some (.arrrest)
    | 8 => some (.setpool (SSrc.ofCode (fld w 21 15)) (BitVec.ofNat 6 (fld w 14 9)))
    | 9 => some (.tlbinv (SSrc.ofCode (fld w 21 15)) (TlbKind.ofCode (fld w 14 12)))
    | 10 => some (.cwb (SSrc.ofCode (fld w 21 15)) (CacheKind.ofCode (fld w 14 12)))
    | 11 => some (.cinv (SSrc.ofCode (fld w 21 15)) (CacheKind.ofCode (fld w 14 12)))
    | 12 => some (.wfe)
    | _ => none

/-- The instruction whose CLASS and OP a word holds, its fields read where the format puts them. -/
def rawDecode (w : Nat) : Option Instr :=
  match fld w 30 28 with
  | 0 => rawDecodeS w
  | 1 => rawDecodeV w
  | 2 => rawDecodeM w
  | 3 => rawDecodeL w
  | 4 => rawDecodeC w
  | 5 => rawDecodeB w
  | 6 => rawDecodeX w
  | _ => none

/-- Decode the slot word w, STOP aside (R40, R55): a word whose fields hold a reserved value, or whose
zero fields are not zero, is not the word of the instruction it names and is refused. -/
def decodeWord (w : Nat) : Except DecodeError Instr :=
  if fld w 30 28 = 7 then .error .class7
  else
    match rawDecode w with
    | none => .error .unassignedOp
    | some i => if i.wf ∧ encode i = some (w % 2147483648) then .ok i else .error .reservedField

/-- The reason code of R40. -/
def DecodeError.reason : DecodeError → Nat
  | .class7 => 3
  | .unassignedOp => 6
  | .reservedField => 7

/-- The host's question: the instruction read from a word numbered as opcode_table.json numbers it. -/
def decodeTableWord (nbits w : Nat) : Option Instr :=
  match decodeWord (w % 2 ^ nbits) with
  | .ok i => some i
  | .error _ => none

end Sys2Proof
end

