-- ==== Sys2Proof/Machine/Layout.lean ====
section
/-! DEFINITION. Machine/Layout.lean: handle entries, the layout unit and index tables (R260-R262, R291-R294), and the
accesses a core's tile requests make. -/

namespace Sys2Proof.Machine

open Sys2Proof

/-! ## Handle entries (R260, R261) -/

def numAt (bs : List Byte) (o n : Nat) : Nat := ofBytes ((bs.drop o).take n)

/-- R261: a handle entry; none where it is invalid. -/
def parseHandle (bs : List Byte) : Option Handle :=
  let kind := numAt bs 9 1
  let fmt := numAt bs 10 1
  let dims := numAt bs 11 1
  let nd := dims % 8
  let w := dims / 16 % 8
  let itab := numAt bs 57 7
  if numAt bs 8 1 != 1 || 4 < kind || 8 < fmt || nd == 0 || 5 < nd || dims / 8 % 2 == 1 || dims / 128 == 1
      || (3 ≤ kind && (w == 0 || 4 < w)) || numAt bs 31 1 != 0 || 2 ^ 52 ≤ itab then none
  else some ⟨numAt bs 0 8, kind, fmt, nd, w, numAt bs 12 4, tab 5 fun d => numAt bs (16 + 3 * d) 3,
    tab 5 fun d => numAt bs (32 + 5 * d) 5, itab⟩

/-- R251: the device address of handle h. -/
def State.handleVa (s : State) (v h : Nat) : Nat := bits (s.vdev v).htbase 51 18 * 2 ^ 18 + 64 * h

/-- R260: the entry of handle h read at its home; or a cause and the logged address. -/
def State.readHandle (s : State) (v h : Nat) (user : Bool) : State × Except (Nat × Nat) Handle :=
  let va := s.handleVa v h
  let r := s.devRead v va 64 user
  match r.2 with
  | .error e => (r.1, .error (e.1, va))
  | .ok bs =>
    match parseHandle bs with
    | some h => (r.1, .ok h)
    | none => (r.1, .error (5, va))

/-- Bytes of an element (R261). -/
def Handle.esz (h : Handle) : Nat :=
  if h.fmt == 0 || h.fmt == 7 then 4 else if h.fmt == 1 || h.fmt == 2 then 2 else 1

def Handle.e (h : Handle) (d : Nat) : Nat := nth 1 h.ext d
def Handle.st (h : Handle) (d : Nat) : Nat := nth 0 h.stride d

/-- R262: the address of an element; none outside the extents. -/
def Handle.elem (h : Handle) (c : List Nat) : Option Nat :=
  let x := fun (d : Nat) => nth 0 c d
  if (List.range 5).any fun d => decide (h.e d ≤ x d) then none
  else
    let high := h.base + x 2 * h.st 2 + x 3 * h.st 3 + x 4 * h.st 4
    if h.kind == 1 then
      some (high + x 1 / 128 * h.st 1 + x 0 / 128 * (16384 * h.esz) + (x 1 % 128 * 128 + x 0 % 128) * h.esz)
    else some (high + x 0 * h.st 0 + x 1 * h.st 1)

/-- Elements in a row, joined where their addresses follow each other: address and count. -/
def joinRuns (esz : Nat) : List (Option Nat) → List (Option Nat × Nat)
  | [] => []
  | a :: t =>
    match a, joinRuns esz t with
    | some x, (some y, n) :: r => if x + esz == y then (some x, n + 1) :: r else (some x, 1) :: (some y, n) :: r
    | none, (none, n) :: r => (none, n + 1) :: r
    | _, r => (a, 1) :: r

/-! ## Accesses of a core's tile requests -/

/-- An access cut at 128-byte sectors. -/
def sectorPieces : Nat → Nat → Nat → List (Nat × Nat)
  | 0, _, _ => []
  | f + 1, va, n =>
    if n == 0 then [] else
    let k := min n (128 - va % 128)
    (va, k) :: sectorPieces f (va + k) (n - k)

/-- The bytes of an access inside a sector that the L1 of core n holds. -/
def State.ownBytes (s : State) (n va k : Nat) : List (Option L1Byte) :=
  match s.lookup [] (s.vdevOf n) va with
  | none => []
  | some t =>
    match (s.core n).l1Line t.pa with
    | some l => l.get t.pa k
    | none => []

/-- Errors in the sector of the L1 of core n that holds an address are found (R235). -/
def State.ownCheck (s : State) (n va : Nat) : State :=
  match s.lookup [] (s.vdevOf n) va with
  | some t => s.l1Check n t.pa
  | none => s

/-- R356, R358: an access read sector by sector at its home, the bytes that the core's L1 holds taken from there, its L1
unchanged (log 16): a later load of the core then never returns an older write. A sector of which it holds every byte asked for
needs no read at the home. -/
def State.ownRead (s : State) (n : Nat) (user : Bool) : List (Nat × Nat) → State × Except (Nat × Nat) (List Byte)
  | [] => (s, .ok [])
  | (va, k) :: t =>
    let v := s.vdevOf n
    let s := s.ownCheck n va
    let own := s.ownBytes n va k
    let mine := fun (i : Nat) => nth none own i
    let r : State × Except (Nat × Nat) (List Byte) :=
      if (List.range k).all fun i => (mine i).isSome then
        (s.walked [] v va, match s.translate [] v va .r user with
          | .error c => .error (c, va)
          | .ok _ => .ok (List.replicate k 0))
      else s.devReadL [] v user true (piecesOf va k)
    match r.2, (List.range k).find? fun i => (mine i).any (·.poison) with
    | .error e, _ => (r.1, .error e)
    | .ok _, some i => (r.1, .error (6, va + i))
    | .ok bs, none =>
      let q := r.1.ownRead n user t
      match q.2 with
      | .error e => (q.1, .error e)
      | .ok bs' => (q.1, .ok ((bs.zipIdx.map fun b => ((mine b.2).map (·.val)).getD b.1) ++ bs'))

/-- R356: bytes that a tile store has written at their home, where the core's L1 holds them, hold the new value, which needs no
second arrival (log 16). -/
def State.ownWrite (s : State) (n : Nat) : List (Nat × Nat) → List Byte → State
  | [], _ => s
  | (va, k) :: t, bs =>
    let s' := match s.lookup [] (s.vdevOf n) va with
      | none => s
      | some tr =>
        if (s.ownBytes n va k).all (·.isNone) then s
        else s.l1Upd n tr.pa fun (l : L1Line) => { l with
          bytes := l.bytes.map fun (b : Nat × L1Byte) =>
            if decide (tr.pa % 512 ≤ b.1 ∧ b.1 < tr.pa % 512 + k) then (b.1, ⟨nth 0 bs (b.1 - tr.pa % 512), false, false⟩) else b }
    s'.ownWrite n t (bs.drop k)

/-- k bytes read for a context of core n at a level; the lines of a tile request are counted apart (countTile). -/
def State.tileRead (s : State) (n level va k : Nat) : State × Except (Nat × Nat) (List Byte) :=
  match (s.core n).target level va k with
  | .pool off => (s, .ok ((s.core n).pool.readN off k))
  | .err a => (s, .error (3, a))
  | .mem =>
    if (s.core n).l1.isEmpty then s.devReadL [] (s.vdevOf n) (level == 0) true (piecesOf va k)
    else s.ownRead n (level == 0) (sectorPieces (k / 128 + 2) va k)

/-- R227: the first byte of a row's runs outside the part of the address space that holds the row's first byte. -/
def Core.splitFrom (c : Core) (p : Part) (esz : Nat) : List (Option Nat × Nat) → Option Nat
  | [] => none
  | (none, _) :: t => c.splitFrom p esz t
  | (some va, k) :: t =>
    let q := c.part va
    if q.1 != p then some va
    else if q.2 < va + k * esz then some q.2
    else c.splitFrom p esz t

/-- R227: a row is checked whole before any of its bytes moves. -/
def Core.rowSplit (c : Core) (esz : Nat) (runs : List (Option Nat × Nat)) : Option Nat :=
  match runs.findSome? (·.1) with
  | some va => c.splitFrom (c.part va).1 esz runs
  | none => none

/-- R229, R268: a row's runs touch a pool unit in transition or a page that migrates. -/
def State.rowWaits (s : State) (n level esz : Nat) (runs : List (Option Nat × Nat)) : Bool :=
  runs.any fun r => match r.1 with
    | some va => (s.core n).windowChanging level va (r.2 * esz)
        || ((s.core n).target level va (r.2 * esz) == .mem && s.moving [] (s.vdevOf n) va (r.2 * esz))
    | none => false

/-- The checks of a write of k bytes for a context of core n (R157, R227). -/
def State.tileCheck (s : State) (n level va k : Nat) : Except (Nat × Nat) Unit :=
  match (s.core n).target level va k with
  | .pool _ => .ok ()
  | .err a => .error (3, a)
  | .mem => (piecesOf va k).foldl (fun r p =>
      match r with
      | .error e => .error e
      | .ok _ =>
        match s.translate [] (s.vdevOf n) p.1 .w (level == 0) with
        | .error c => .error (c, p.1)
        | .ok t => if s.gone t.pa p.2 then .error (3, p.1 + firstMet s.lostRanges t.pa p.2) else .ok ()) (.ok ())

/-- The 512-byte lines of device memory that the runs of a row touch for a context of core n. -/
def State.linesOf (s : State) (n level esz : Nat) (runs : List (Option Nat × Nat)) : List Nat :=
  runs.flatMap fun r => match r.1 with
    | some va =>
      let k := r.2 * esz
      if (s.core n).target level va k == .mem then (List.range ((va + k + 511) / 512 - va / 512)).map (va / 512 + ·) else []
    | none => []

/-- R262, R267: a tile request makes one request to the home of each line that it touches, however many of its rows lie there
(log 52): each line that the access may reach counts once. -/
def State.countTile (s : State) (n level : Nat) (a : Acc) (esz : Nat) (rows : List (List (Option Nat × Nat))) : State :=
  let whole := rows.filter fun r => ((s.core n).rowSplit esz r).isNone
  let lines := (whole.flatMap (s.linesOf n level esz)).eraseDups
  lines.foldl (fun s l => match s.translate [] (s.vdevOf n) (512 * l) a (level == 0) with
    | .ok t => s.countPage t.pa (s.vdevOf n)
    | .error _ => s) s

/-- The write, its checks passed. -/
def State.tileWrite (s : State) (n level own va : Nat) (bs : List Byte) : State :=
  match (s.core n).target level va bs.length with
  | .pool off => s.updCore n fun c => { c with pool := c.pool.writeN off bs }
  | .err _ => s
  | .mem =>
    let t := (s.devWriteL [] (s.vdevOf n) (level == 0) own true (piecesOf va bs.length) bs).1
    if (s.core n).l1.isEmpty then t else t.ownWrite n (sectorPieces (bs.length / 128 + 2) va bs.length) bs

/-- A row's runs read: its bytes, or the first refusal. -/
def State.readRuns (s : State) (n level esz : Nat) (pad : List Byte) :
    List (Option Nat × Nat) → State × Except (Nat × Nat) (List Byte)
  | [] => (s, .ok [])
  | (a, k) :: t =>
    let r := match a with
      | some va => s.tileRead n level va (k * esz)
      | none => (s, .ok ((List.replicate k pad).flatten))
    match r.2 with
    | .error e => (r.1, .error e)
    | .ok bs =>
      let q := r.1.readRuns n level esz pad t
      match q.2 with
      | .error e => (q.1, .error e)
      | .ok bs' => (q.1, .ok (bs ++ bs'))

/-- The checks of a row's runs. -/
def State.checkRuns (s : State) (n level esz : Nat) : List (Option Nat × Nat) → Except (Nat × Nat) Unit
  | [] => .ok ()
  | (none, _) :: t => s.checkRuns n level esz t
  | (some va, k) :: t =>
    match s.tileCheck n level va (k * esz) with
    | .error e => .error e
    | .ok _ => s.checkRuns n level esz t

/-- R227: a row read whole, and the checks of a row written whole. -/
def State.readRow (s : State) (n level esz : Nat) (pad : List Byte) (runs : List (Option Nat × Nat)) :
    State × Except (Nat × Nat) (List Byte) :=
  match (s.core n).rowSplit esz runs with
  | some a => (s, .error (3, a))
  | none => s.readRuns n level esz pad runs

def State.checkRow (s : State) (n level esz : Nat) (runs : List (Option Nat × Nat)) : Except (Nat × Nat) Unit :=
  match (s.core n).rowSplit esz runs with
  | some a => .error (3, a)
  | none => s.checkRuns n level esz runs

/-- A row's runs written from its bytes; elements outside the extents are not written. -/
def State.writeRuns (s : State) (n level own esz : Nat) : List (Option Nat × Nat) → List Byte → State
  | [], _ => s
  | (a, k) :: t, bs =>
    let s' := match a with
      | some va => s.tileWrite n level own va (bs.take (k * esz))
      | none => s
    s'.writeRuns n level own esz t (bs.drop (k * esz))

/-! ## Tile descriptors (R162) -/

/-- The fields of a descriptor and its coordinates. -/
structure TileReq where
  dst : Nat
  cols : Nat
  rows : Nat
  form : Bool
  hnd : Nat
  c2 : Nat
  c3 : Nat
  c4 : Nat
  t0 : Nat
  t1 : Nat
  deriving DecidableEq, Repr

def tileReq (a b : Nat) : TileReq :=
  { dst := fld a 63 40, cols := fld a 39 24 + 1, rows := fld a 22 16 + 1, form := fld a 15 15 == 1, hnd := fld a 11 0,
    c2 := fld b 35 24, c3 := fld b 47 36, c4 := fld b 59 48, t0 := fld b 11 0, t1 := fld b 23 12 }

/-- The runs of row r of the tile. -/
def TileReq.runs (q : TileReq) (h : Handle) (r : Nat) : List (Option Nat × Nat) :=
  joinRuns h.esz (tab q.cols fun c => h.elem [q.t0 * q.cols + c, q.t1 * q.rows + r, q.c2, q.c3, q.c4])

/-- R163: the stride of a scratchpad tile's rows. -/
def TileReq.stride (q : TileReq) (h : Handle) : Nat := roundUp (q.cols * h.esz) 128

/-- R291: the layout serves the request. -/
def TileReq.served (q : TileReq) (h : Handle) (dest : TldWhere) (store : Bool) : Bool :=
  let whole := h.e 0 % 128 == 0 && h.e 1 % 128 == 0 && q.rows == 128 && q.cols == 128
  let ring := dest != .scratch
  match h.kind with
  | 0 | 1 => (h.fmt ≤ 4 || (!ring && (h.fmt == 7 || h.fmt == 8))) && !q.form
  | 2 => h.fmt == 5 && whole
  | 3 => h.fmt == 6 && whole && !q.form
  | _ => h.fmt == 6 && whole && !q.form && !store && dest != .ringA

/-- A plane or coded tile lies inside the extents. -/
def TileReq.inside (q : TileReq) (h : Handle) : Bool :=
  decide (q.t0 < h.e 0 / 128 ∧ q.t1 < h.e 1 / 128 ∧ q.c2 < h.e 2 ∧ q.c3 < h.e 3 ∧ q.c4 < h.e 4)

/-- R292: the tile's number in its slice, and the address of a plane tile of n bytes. -/
def TileReq.tnum (q : TileReq) (h : Handle) : Nat := q.t1 * (h.e 0 / 128) + q.t0
def TileReq.planeVa (q : TileReq) (h : Handle) (n : Nat) : Nat :=
  h.base + q.c2 * h.st 2 + q.c3 * h.st 3 + q.c4 * h.st 4 + n * q.tnum h

/-- R292: the number of the tile's index-table entry. -/
def TileReq.entry (q : TileReq) (h : Handle) : Nat :=
  ((q.c4 * h.e 3 + q.c3) * h.e 2 + q.c2) * (h.e 0 * h.e 1 / 16384) + q.tnum h

/-- What a served request reaches in device memory: the runs of each of its rows, or the bytes of a plane or coded tile, in
units of `Handle.unit` bytes. -/
def TileReq.parts (q : TileReq) (h : Handle) (itab : List Byte) : List (List (Option Nat × Nat)) :=
  let w := 2048 * (if h.kind == 2 then 8 else h.w)
  if h.kind < 2 then (List.range q.rows).map (q.runs h)
  else if h.kind == 4 then [[(some (h.base + numAt itab 0 8), numAt itab 8 4)]]
  else if q.inside h then [[(some (q.planeVa h w), w)]]
  else []

def Handle.unit (h : Handle) : Nat := if h.kind < 2 then h.esz else 1

/-- R294: a valid index-table entry. -/
def itabValid (bs : List Byte) : Bool :=
  let o := fun (k : Nat) => if k < 64 then numAt bs (16 + 2 * k) 2 else numAt bs 8 4
  o 0 == 0 && (List.range 64).all (fun k => decide (o k + 34 ≤ o (k + 1))) && decide (2176 ≤ o 64 ∧ o 64 ≤ 32640)
    && numAt bs 12 4 == 0 && (bs.drop 144).all (· == 0)

/-- Bytes of a served tile (R120, R163, R292); `itab` is its index-table entry. -/
def TileReq.len (q : TileReq) (h : Handle) (ring : Bool) (itab : List Byte) : Nat :=
  match h.kind with
  | 0 | 1 => if ring then 16384 * h.esz else q.rows * q.stride h
  | 2 => 16384
  | 3 => 2048 * h.w
  | _ => 128 + numAt itab 8 4

/-! ## Planes (R24, R291) -/

/-- Eight planes from 16,384 bytes: plane k holds bit 7 - k. -/
def bytesToPlanes (bs : List Byte) : List Byte :=
  let v := bs.toArray
  (List.range 8).flatMap fun k => tab 2048 fun i =>
    BitVec.ofNat 8 (((List.range 8).map fun m => (v.getD (8 * i + m) 0).toNat / 2 ^ (7 - k) % 2 * 2 ^ m).sum)

/-- The bytes of eight planes. -/
def planesToBytes (ps : List Byte) : List Byte :=
  let v := ps.toArray
  tab 16384 fun i => BitVec.ofNat 8 (((List.range 8).map fun k =>
    (v.getD (2048 * k + i / 8) 0).toNat / 2 ^ (i % 8) % 2 * 2 ^ (7 - k)).sum)

/-- A plane tile outside the extents: every element is the pad value (R162, log 17). -/
def padPlanes (w pad : Nat) : List Byte :=
  (List.range w).flatMap fun k => List.replicate 2048 (if pad / 2 ^ (w - 1 - k) % 2 == 1 then 0xFF else 0)

end Sys2Proof.Machine
end

