-- ==== Sys2Proof/Machine/LoadStore.lean ====
section
/-! DEFINITION. Machine/LoadStore.lean: the L class (R150-R165, R225-R238). -/

namespace Sys2Proof

def Size.bytes : Size → Nat
  | .byte => 1 | .half => 2 | .word => 4 | .double => 8

/-- R354: the acquiring and releasing work of a scope: none at core scope (R234). -/
def Scope.wide : Scope → Bool
  | .core => false
  | _ => true

def TldWhere.isB : TldWhere → Bool
  | .ringB => true
  | _ => false

end Sys2Proof

namespace Sys2Proof.Machine

open Sys2Proof

/-! ## Shared operations -/

/-- R153: a base and a scaled, sign-extended offset. -/
def addrOf (base : Word) (off : BitVec n) (scale : Nat) : Nat :=
  (base + off.signExtend 64 * BitVec.ofNat 64 scale).toNat

/-- A value of n bytes extended to 64 bits. -/
def extend (signed : Bool) (bs : List Byte) : Word :=
  if signed then sext64 (8 * bs.length) (ofBytes bs) else BitVec.ofNat 64 (ofBytes bs)

/-- R160: after a phase.acq the context issues no L-slot memory access, tld, tst or amo until it completes. -/
def State.accessOk (s : State) : Except Void Unit := need s.me.phaseAcq.isEmpty (.stall .mem)

/-- R322: a slot that finds a register empty waits in another cause where that one holds of the slot too and comes first;
`hold` is the wait it would meet with its registers full. -/
def orHold (hold : Except Void Unit) (r : Except Void State) : Except Void State :=
  match r with
  | .error (.stall .fe) =>
    match hold with
    | .error (.stall c) => .error (.stall c)
    | _ => r
  | _ => r

/-- R152: a device address is a multiple of the access size. -/
def aligned (va n : Nat) : Except Void Unit := need (va % n == 0) (faultAt 0x0E 0 0 va)

/-- R93, R229, R268: where an access goes; one to a pool unit in transition, or to a page that migrates, stalls. -/
def State.windowOk (s : State) (va n : Nat) : Except Void Target := do
  need (!s.mycore.windowChanging s.me.level va n) (.stall .mem)
  let t := s.mycore.target s.me.level va n
  need (t != .mem || !s.moving (s.tlbs s.cur) (s.vdevOf s.cur) va n) (.stall .mem)
  pure t

/-- R361, R234: an eager release by context j of core n. -/
def State.release (s : State) (n j : Nat) : State := (s.register n j).l1WriteBack n fun _ => true

/-- R157: the first failure of a store is held until an ordering bundle (log 18), and logged (R399). -/
def State.holdFault (s : State) (n j cause addr bad bundle : Nat) : State :=
  (s.updCtx n j fun x => { x with storeFault := some (x.storeFault.getD ⟨cause, addr, bundle⟩) }).violateCause n j bad cause

/-! ## Scratchpad (R153-R155) -/

/-- R153: a scratchpad load. -/
def State.ldsOp (s : State) (signed : Bool) (d : SDst) (a : SSrc) (i : BitVec 7) (z : Size) : Except Void State :=
  orHold s.accessOk do
    let x ← s.readS a
    s.accessOk
    let at_ := addrOf x i z.bytes
    s.scrOk at_ z.bytes z.bytes
    pure (s.landS .lds (sdst d) (extend signed (s.mycore.scr at_ z.bytes)) 5)

/-- R43. -/
def execNopL (s : State) : Host.Outcome State Fault Refusal := .next s

/-- R153. -/
def execLds (d : BitVec 6) (a : SSrc) (i : BitVec 7) (z : Size) (s : State) : Host.Outcome State Fault Refusal :=
  slot s (s.ldsOp false d a i z)

/-- R153. -/
def execLdsS (d : BitVec 6) (a : SSrc) (i : BitVec 7) (z : Size) (s : State) : Host.Outcome State Fault Refusal :=
  slot s (s.ldsOp true d a i z)

/-- R153: the low bytes of a are written at b + off. -/
def execSts (a b : SSrc) (i : BitVec 6) (z : Size) (s : State) : Host.Outcome State Fault Refusal :=
  slot s (orHold s.accessOk do
    let v ← s.readS a
    let x ← s.readS b
    s.accessOk
    let at_ := addrOf x i z.bytes
    s.scrOk at_ z.bytes z.bytes
    pure (s.updMyCore fun c => c.setScr at_ (toBytes z.bytes v.toNat)))

/-- R154. -/
def execLdv (d : VDst) (a : SSrc) (i : BitVec 10) (s : State) : Host.Outcome State Fault Refusal :=
  slot s (orHold s.accessOk do
    let x ← s.readS a
    s.accessOk
    let at_ := addrOf x i 512
    s.scrOk at_ 512 512
    let bs := s.mycore.scr at_ 512
    pure (s.landW .ld (vdst d) (tab 128 fun l => BitVec.ofNat 32 (numAt bs (4 * l) 4)) 5 0 false))

/-- R154. -/
def execStv (v : VSrc) (a : SSrc) (i : BitVec 7) (s : State) : Host.Outcome State Fault Refusal :=
  slot s (orHold s.accessOk do
    let x ← s.readS a
    s.accessOk
    let at_ := addrOf x i 512
    s.scrOk at_ 512 512
    let w := s.readV v
    pure (s.updMyCore fun c => c.setScr at_ ((List.range 128).flatMap fun l => toBytes 4 (lane w l).toNat)))

/-! ## Memory loads and stores (R156-R158) -/

/-- A load of device memory performed for the issuing context: its bytes, or its cause and the first byte
refused. -/
def State.loadMem (s : State) (va n : Nat) : State × Except (Nat × Nat) (List Byte) :=
  let v := s.vdevOf s.cur
  match s.translate (s.tlbs s.cur) v va .r (s.me.level == 0) with
  | .error c => (s.fillTlb s.cur va, .error (c, va))
  | .ok t =>
    let r := (s.fillTlb s.cur va).l1Read s.cur t.pa n v (fld t.pte 8 7)
    match r.2 with
    | .error e => (r.1, .error (e.1, va + e.2))
    | .ok bs => (r.1, .ok bs)

/-- The violation that a refused access of the item with a work identifier logs at its completion (R399). -/
def viol (wid cause addr : Nat) : Option Viol := (violKind cause).map fun k => ⟨k, addr, wid⟩

/-- R156, R226: a load as its bundle issues it; it completes later (log 19). -/
def State.loadOp (s : State) (signed : Bool) (d : SDst) (a : SSrc) (i : BitVec 7) (z : Size) : Except Void State :=
  orHold s.accessOk do
    let x ← s.readS a
    let n := z.bytes
    let va := addrOf x i n
    s.accessOk
    aligned va n
    let t ← s.windowOk va n
    let r := match t with
      | .pool off => (s, Except.ok (s.mycore.pool.readN off n))
      | .err b => (s, .error (3, b))
      | .mem => s.loadMem va n
    pure (match r.2 with
      | .ok bs => r.1.produce d.toNat (.load none) (some (.value (extend signed bs)))
      | .error e => r.1.produce d.toNat (.load (viol s.me.wid e.1 e.2)) (some (memFault e.1 va none)))

/-- R158: the line of a physical address filled into L1, or into L2. -/
def State.fillLine (s : State) (n pa v tc : Nat) : State :=
  allSectors.foldl (fun s k => (s.l1Read n (pa / 512 * 512 + 128 * k) 128 v tc).1) s

/-- R158: a prefetch fills the line and raises no fault; only a permission failure is logged. One of a window address does
nothing (R226). -/
def State.prefetchOp (s : State) (a : SSrc) (i : BitVec 7) (z : Size) : Except Void State :=
  orHold s.accessOk do
    let x ← s.readS a
    let va := addrOf x i z.bytes
    s.accessOk
    let v := s.vdevOf s.cur
    if s.mycore.target s.me.level va 1 != .mem then pure s
    else do
      need (!s.moving (s.tlbs s.cur) v va 1) (.stall .mem)
      let w := s.fillTlb s.cur va
      pure (match s.translate (s.tlbs s.cur) v va .r (s.me.level == 0) with
        | .ok t => w.fillLine s.cur t.pa v (fld t.pte 8 7)
        | .error c => if c == 2 then w.violate s.cur s.j va 1 else w)

/-- R156, R158. -/
def execLd (d : BitVec 6) (a : SSrc) (i : BitVec 7) (z : Size) (s : State) : Host.Outcome State Fault Refusal :=
  slot s (if d.toNat == 0 then s.prefetchOp a i z else s.loadOp false d a i z)

/-- R156, R158. -/
def execLdS (d : BitVec 6) (a : SSrc) (i : BitVec 7) (z : Size) (s : State) : Host.Outcome State Fault Refusal :=
  slot s (if d.toNat == 0 then s.prefetchOp a i z else s.loadOp true d a i z)

/-- R156: an acquire at package scope, then the load; a window address covers core scope only (R226). -/
def execLda (d : BitVec 6) (a : SSrc) (i : BitVec 7) (z : Size) (s : State) : Host.Outcome State Fault Refusal :=
  slot s (orHold s.accessOk do
    let x ← s.readS a
    let here := s.mycore.target s.me.level (addrOf x i z.bytes) z.bytes
    (if here == .mem then s.l1Acquire s.cur else s).loadOp false d a i z)

/-- R156, R157, R226: a store; one that fails its checks writes nothing. -/
def State.storeOp (s : State) (a b : SSrc) (i : BitVec 6) (z : Size) (rel : Bool) : Except Void State :=
  orHold s.accessOk do
    let w ← s.readS a
    let x ← s.readS b
    let n := z.bytes
    let va := addrOf x i n
    s.accessOk
    aligned va n
    let t ← s.windowOk va n
    let bs := toBytes n w.toNat
    let v := s.vdevOf s.cur
    let j := s.j
    let fail := fun (s : State) (cause bad : Nat) => s.holdFault s.cur j cause va bad s.issue.addr
    match t with
    | .pool off =>
      let s := if rel then s.register s.cur j else s
      pure (s.updMyCore fun c => { c with pool := c.pool.writeN off bs })
    | .err e => pure (fail s 3 e)
    | .mem =>
      let s := if rel then s.release s.cur j else s
      let w := s.fillTlb s.cur va
      match s.translate (s.tlbs s.cur) v va .w (s.me.level == 0) with
      | .error c => pure (fail w c va)
      | .ok t =>
        if w.gone t.pa n then pure (fail w 3 (va + firstMet w.lostRanges t.pa n))
        else
          let s := w.l1Write s.cur j t.pa bs v (fld t.pte 8 7)
          pure (if rel then s.l1WriteBack s.cur fun l => l.pa == t.pa / 512 else s)

/-- R156. -/
def execSt (a b : SSrc) (i : BitVec 6) (z : Size) (s : State) : Host.Outcome State Fault Refusal :=
  slot s (s.storeOp a b i z false)

/-- R156: performed only after every earlier store of the context is visible. -/
def execSta (a b : SSrc) (i : BitVec 6) (z : Size) (s : State) : Host.Outcome State Fault Refusal :=
  slot s (do
    s.ordering
    s.storeOp a b i z true)

/-- Producer k of a context, when it is of the kind an event completes. -/
def State.prodAt (s : State) (n j k : Nat) : Option Prod := (s.ctx n j).prods[k]?

/-- R399: the violation of a variable producer is logged as it completes. -/
def State.logViol (s : State) (n j : Nat) : Option Viol → State
  | none => s
  | some v => s.violateAs n j v.addr v.kind v.wid

/-- R156, R54. -/
def execLoadCompletion (core ctx k : Nat) (s : State) : Host.Outcome State Fault Refusal :=
  match s.prodAt core ctx k with
  | some p =>
    match p.work, p.done with
    | .load v, some d => .next ((s.logViol core ctx v).finish core ctx k p d)
    | _, _ => .next s
  | none => .next s

/-! ## Atomics (R159) -/

/-- The operations of the amo forms. -/
inductive AmoOp where
  | add | and_ | or_ | xor | min | max | xchg | cas
  deriving DecidableEq, Repr

/-- R159: the new value of w bytes from the old one, the operand and the swap value. -/
def amoNew (op : AmoOp) (w old x y : Nat) : Nat :=
  let m := 2 ^ (8 * w)
  let sg := fun (v : Nat) => sfield (8 * w) v
  match op with
  | .add => (old + x) % m
  | .and_ => Nat.land old x % m
  | .or_ => Nat.lor old x % m
  | .xor => Nat.xor old x % m
  | .min => if sg old ≤ sg x then old else x
  | .max => if sg old ≤ sg x then x else old
  | .xchg => x
  | .cas => if old == x then y else old

/-- R159, R234, R305: an atomic at the home of a translated location, owner own: the old value or a cause. -/
def State.amoHome (s : State) (op : AmoOp) (t : Trans) (w x y v own : Nat) : State × Except Nat Nat :=
  s.atomicAt t w v own fun old => amoNew op w old (x % 2 ^ (8 * w)) (y % 2 ^ (8 * w))

/-- A line leaves L2 and the MSC for its tier. -/
def State.lineOut (s : State) (la : Nat) : State :=
  let ls := (s.l2 ++ s.msc).filter fun l => l.pa == la
  ls.foldl (fun s l => s.toTier l)
    { s with l2 := s.l2.filter (fun l => l.pa != la), msc := s.msc.filter (fun l => l.pa != la) }

/-- R159, R252: an atomic performed through CXL, at the memory of its line. -/
def State.amoCxl (s : State) (op : AmoOp) (t : Trans) (w x y v : Nat) : State × Except Nat Nat :=
  let s := (s.countPage t.pa v).lineOut (t.pa / 512)
  match s.readCause t.pa w with
  | 0 =>
    let old := s.mem.num t.pa w
    let new := amoNew op w old (x % 2 ^ (8 * w)) (y % 2 ^ (8 * w))
    (((s.hwWrite t.pa (toBytes w new)).tierWrite (t.pa / 512)).armHint v t.pa old new, .ok old)
  | 4 => (s.chargeRead t.pa w v, .error 4)
  | c => (s, .error c)

/-- R159: an atomic of scope c where it is performed: through CXL at system scope on a line there, otherwise at the home. -/
def State.amoAt (s : State) (op : AmoOp) (c : Scope) (t : Trans) (w x y v own : Nat) : State × Except Nat Nat :=
  if c == .system && tierOf t.pa == 2 then s.amoCxl op t w x y v else s.amoHome op t w x y v own

/-- R159, R226: an atomic of the issuing context. -/
def State.amoOp (s : State) (op : AmoOp) (c : Scope) (o : AmoOrder) (d : SDst) (a : SSrc) (w32 : Bool) :
    Except Void State := do
  s.ordering
  orHold s.accessOk do
  let x ← s.readD d
  let y ← if op == .cas then s.readD (d + 1) else pure 0
  let b ← s.readS a
  let w := if w32 then 4 else 8
  let va := b.toNat
  s.accessOk
  aligned va w
  let t ← s.windowOk va w
  let v := s.vdevOf s.cur
  let j := s.j
  let r : State × Except (Nat × Nat) Nat := match t with
    | .pool off =>
      let s := if o == .rel then s.register s.cur j else s
      let old := s.mycore.pool.num off w
      (s.updMyCore fun k => { k with
        pool := k.pool.writeN off (toBytes w (amoNew op w old (x.toNat % 2 ^ (8 * w)) (y.toNat % 2 ^ (8 * w)))) }, .ok old)
    | .err e => (s, .error (3, e))
    | .mem =>
      let s := if o != .rel then s else if c.wide then s.release s.cur j else s.register s.cur j
      match s.translate (s.tlbs s.cur) v va .w (s.me.level == 0) with
      | .error k => (s.fillTlb s.cur va, .error (k, va))
      | .ok t =>
        let q := ((s.fillTlb s.cur va).l1Flush s.cur t.pa).amoAt op c t w x.toNat y.toNat v (ctxNum s.cur j)
        match q.2 with
        | .error k => (q.1, .error (k, va))
        | .ok old => (if o == .acq && c.wide then q.1.l1Acquire s.cur else q.1, .ok old)
  pure (match r.2 with
    | .ok old => r.1.produce d.toNat (.amo none) (some (.value (BitVec.ofNat 64 old)))
    | .error e => r.1.produce d.toNat (.amo (viol s.me.wid e.1 e.2)) (some (memFault e.1 va none)))

/-- R159. -/
def execAmoAdd (c : Scope) (o : AmoOrder) (d : BitVec 6) (a : SSrc) (w : Bool) (s : State) :
    Host.Outcome State Fault Refusal :=
  slot s (s.amoOp .add c o d a w)

/-- R159. -/
def execAmoAnd (c : Scope) (o : AmoOrder) (d : BitVec 6) (a : SSrc) (w : Bool) (s : State) :
    Host.Outcome State Fault Refusal :=
  slot s (s.amoOp .and_ c o d a w)

/-- R159. -/
def execAmoOr (c : Scope) (o : AmoOrder) (d : BitVec 6) (a : SSrc) (w : Bool) (s : State) :
    Host.Outcome State Fault Refusal :=
  slot s (s.amoOp .or_ c o d a w)

/-- R159. -/
def execAmoXor (c : Scope) (o : AmoOrder) (d : BitVec 6) (a : SSrc) (w : Bool) (s : State) :
    Host.Outcome State Fault Refusal :=
  slot s (s.amoOp .xor c o d a w)

/-- R159. -/
def execAmoMin (c : Scope) (o : AmoOrder) (d : BitVec 6) (a : SSrc) (w : Bool) (s : State) :
    Host.Outcome State Fault Refusal :=
  slot s (s.amoOp .min c o d a w)

/-- R159. -/
def execAmoMax (c : Scope) (o : AmoOrder) (d : BitVec 6) (a : SSrc) (w : Bool) (s : State) :
    Host.Outcome State Fault Refusal :=
  slot s (s.amoOp .max c o d a w)

/-- R159. -/
def execAmoXchg (c : Scope) (o : AmoOrder) (d : BitVec 6) (a : SSrc) (w : Bool) (s : State) :
    Host.Outcome State Fault Refusal :=
  slot s (s.amoOp .xchg c o d a w)

/-- R159: compare in sd, swap in sd + 1. -/
def execAmoCas (c : Scope) (o : AmoOrder) (d : BitVec 6) (a : SSrc) (w : Bool) (s : State) :
    Host.Outcome State Fault Refusal :=
  slot s (s.amoOp .cas c o d a w)

/-- R159, R54. -/
def execAmoReply (core ctx k : Nat) (s : State) : Host.Outcome State Fault Refusal :=
  match s.prodAt core ctx k with
  | some p =>
    match p.work, p.done with
    | .amo v, some d => .next ((s.logViol core ctx v).finish core ctx k p d)
    | _, _ => .next s
  | none => .next s

/-! ## Phase, acquire, release, fence (R160, R161, R357, R360) -/

/-- R160: the variable's address is checked, and the release or acquire leaves for its home. -/
def execPhase (a : SSrc) (c : Scope) (k : PhaseKind) (s : State) : Host.Outcome State Fault Refusal :=
  slot s (do
    s.ordering
    let x ← s.readS a
    let va := x.toNat
    aligned va 8
    let t ← s.windowOk va 8
    let j := s.j
    let leave := fun (s : State) (pa : Nat) => s.updMe fun x => match k with
      | .acq => { x with phaseAcq := x.phaseAcq ++ [(pa, c.code)] }
      | .rel => { x with phaseRel := x.phaseRel ++ [(pa, c.code)] }
    match t with
    | .pool _ => pure s
    | .err e => pure (s.holdFault s.cur j 3 va e s.issue.addr)
    | .mem =>
      match s.translate (s.tlbs s.cur) (s.vdevOf s.cur) va .r (s.me.level == 0) with
      | .error e => pure ((s.fillTlb s.cur va).holdFault s.cur j e va va s.issue.addr)
      | .ok t => pure (leave (s.fillTlb s.cur va) t.pa))

/-- R160, R360: the first acquire of a context reaches its variable's home, after the context's own releases. -/
def execPhaseAcquireAtHome (core ctx : Nat) (s : State) : Host.Outcome State Fault Refusal :=
  .next (s.acquireNext core ctx)

/-- R360: the registrations of a context's phase.rel arrive. -/
def execPhaseReleaseRegistration (core ctx : Nat) (s : State) : Host.Outcome State Fault Refusal :=
  .next (s.register core ctx)

/-- R161: no effect at core scope beyond the order of R155. -/
def execAcq (c : Scope) (s : State) : Host.Outcome State Fault Refusal :=
  slot s (do
    s.ordering
    pure (if c.wide then s.l1Acquire s.cur else s))

/-- R161: a release of the issuing context at a scope; at core scope only its earlier phase.rel go on record (R360). -/
def State.releaseAt (s : State) (c : Scope) : State := if c.wide then s.release s.cur s.j else s.register s.cur s.j

/-- R161. -/
def execRel (c : Scope) (s : State) : Host.Outcome State Fault Refusal :=
  slot s (do
    s.ordering
    pure (s.releaseAt c))

/-- R161: a release, then an acquire. -/
def execFence (c : Scope) (s : State) : Host.Outcome State Fault Refusal :=
  slot s (do
    s.ordering
    pure (if c.wide then (s.releaseAt c).l1Acquire s.cur else s.releaseAt c))

/-! ## Tile transfers (R162-R164, R236-R238) -/

/-- R162, R163: a zero field that is set. -/
def tileFields (a b : Nat) : Bool := fld a 23 23 == 0 && fld a 14 12 == 0 && fld b 63 60 == 0

/-- R163, R260, R294: the handle entry and the index-table entry as read before the bundle; or the cause and
address of what fails: of a refused read its first byte refused (R399). DESIGN CHOICE (log 120): an ITAB that is no multiple of
256 is an invalid layout, reported at the handle entry, and an invalid index entry is reported at its first byte. -/
def State.tileEntries (s : State) (n level : Nat) (q : TileReq) (dest : TldWhere) (store : Bool) :
    State × Except (Nat × Nat) (Handle × List Byte) :=
  let v := s.vdevOf n
  let r := s.readHandle v q.hnd (level == 0)
  match r.2 with
  | .error e => (r.1, .error e)
  | .ok h =>
    let bad := s.handleVa v q.hnd
    if !q.served h dest store then (r.1, .error (5, bad))
    else if h.kind != 4 then (r.1, .ok (h, []))
    else if !q.inside h || h.itab % 256 != 0 then (r.1, .error (5, bad))
    else
      let va := h.itab + 256 * q.entry h
      let i := r.1.tileRead n level va 256
      match i.2 with
      | .error e => (i.1, .error e)
      | .ok bs => (i.1, if itabValid bs then .ok (h, bs) else .error (5, va))

/-- R215, R317: SLOT of a context's DPROG. -/
def Ctx.setSlot (x : Ctx) (slot : Nat) : Ctx :=
  { x with dprog := dprogOf (bits x.dprog 31 16) (bits x.dprog 15 12) (bits x.dprog 10 4) slot }

/-- R93, R229: the rings lie in pool units that a running setpool moves. -/
def Core.ringMoving (c : Core) : Bool := c.setpool.any fun p => p.b2 != c.b2

/-- R237: a tile of context j at the tail of a ring; none where the ring lacks the room, entries that a failed tile still
holds included (R224, R238; log 84), or while it changes (R93). A B tile claimed while none is held names DPROG.SLOT (R317). -/
def Core.claim (c : Core) (j : Nat) (b : Bool) (len coded : Nat) : Option Core :=
  let ts := if b then c.btiles else c.atiles
  let held := (ts.map (·.length)).sum
  let new := fun (off slot : Nat) => (⟨false, false, false, 0, len, off, slot, true, coded, j⟩ : Tile)
  if c.ringMoving || decide (16 ≤ ts.length) || decide (c.half < held + len) then none
  else if b then
    let c := if ts.isEmpty then c.setCtx j ((c.ctx j).setSlot c.bslot) else c
    some { c with btiles := ts ++ [new c.btl c.bslot],
                  btl := (c.btl + len) % max c.half 1, bslot := (c.bslot + 1) % 16 }
  else some { c with atiles := ts ++ [new c.atl 0], atl := (c.atl + len) % max c.half 1 }

/-- A claim that its tld no longer uses leaves the ring (log 20). -/
def Core.unclaim (c : Core) (j : Nat) : Core :=
  let x := c.ctx j
  match x.claimed with
  | none => c
  | some (b, off) => (c.setCtx j { x with claimed := none }).tileFail j b off

/-- R163, R227: the rows of a dense or tiled request read one by one: each its bytes or none, and the first refusal. -/
def State.tileRows (s : State) (n level : Nat) (h : Handle) (q : TileReq) :
    List Nat → State × List (Option (List Byte)) × Option (Nat × Nat)
  | [] => (s, [], none)
  | r :: t =>
    let runs := q.runs h r
    let x := s.readRow n level h.esz (toBytes h.esz h.pad) runs
    let y := x.1.tileRows n level h q t
    match x.2 with
    | .ok bs => (y.1, some bs :: y.2.1, y.2.2)
    | .error e => (y.1, none :: y.2.1, some e)

/-- The bytes of a plane or coded tile (R291, R292). -/
def State.tileWhole (s : State) (n level : Nat) (h : Handle) (q : TileReq) (itab : List Byte) :
    State × Except (Nat × Nat) (List Byte) :=
  let w := if h.kind == 2 then 8 else h.w
  if h.kind == 4 then
    let r := s.tileRead n level (h.base + numAt itab 0 8) (numAt itab 8 4)
    match r.2 with
    | .error e => (r.1, .error e)
    | .ok bs => (r.1, .ok ((itab.drop 16).take 128 ++ bs))
  else if !q.inside h then (s, .ok (padPlanes w h.pad))
  else s.tileRead n level (q.planeVa h (2048 * w)) (2048 * w)

/-- Bit r of a row map (R163). -/
def rowMap {α : Type} (l : List (Option α)) : Nat :=
  ((l.zipIdx).map fun e => if e.1.isSome then 2 ^ e.2 else 0).sum

/-- R229, R268: a tile request whose bytes, its entries read, lie in a pool unit in transition or in a page that
migrates. -/
def State.tileWaits (s : State) (n level : Nat) (q : TileReq) : Except (Nat × Nat) (Handle × List Byte) → Bool
  | .error _ => false
  | .ok (h, itab) =>
    !((s.core n).setpool.isNone && s.migrations.isEmpty) && (q.parts h itab).any (s.rowWaits n level h.unit)

/-- R268: the entries of a tile request lie in a page that migrates. -/
def State.entriesWait (s : State) (n : Nat) (q : TileReq) (r : Except (Nat × Nat) (Handle × List Byte)) : Bool :=
  let v := s.vdevOf n
  s.moving [] v (s.handleVa v q.hnd) 64 || (match r with
    | .ok (h, _) => h.kind == 4 && q.inside h && s.moving [] v (h.itab + 256 * q.entry h) 256
    | .error _ => false)

/-- A tld performed at its memory for the item with a work identifier (R163): what its completion writes. -/
def State.tileLoad (s : State) (n level wid : Nat) (q : TileReq) (dest : TldWhere) (off : Option Nat) :
    Except (Nat × Nat) (Handle × List Byte) → State × TileOp
  | .error e => (s, ⟨false, off, dest, q.dst, 0, [], 0, some e, 0, wid⟩)
  | .ok (h, itab) =>
    let s := s.countTile n level .r h.unit (q.parts h itab)
    let w : State × List (Option (List Byte)) × Option (Nat × Nat) :=
      if h.kind < 2 then s.tileRows n level h q (List.range q.rows)
      else
        let r := s.tileWhole n level h q itab
        match r.2 with
        | .ok bs => (r.1, [some (if q.form then planesToBytes bs else bs)], none)
        | .error e => (r.1, [], some e)
    (w.1, ⟨false, off, dest, q.dst, if dest == .scratch then q.stride h else 128 * h.esz, w.2.1, numAt itab 8 4, w.2.2,
      if h.kind < 2 then rowMap w.2.1 else 0, wid⟩)

/-- The claim a waiting tld was given still serves it. -/
def Core.claimFits (c : Core) (b : Bool) (off len : Nat) : Bool :=
  (if b then c.btiles else c.atiles).any fun t => t.prod && t.offset == off && t.length == len

/-- R163: a tile performed at its memory is outstanding for register d. -/
def State.produceTile (d : Nat) (r : State × TileOp) : State := r.1.produce d (.tile r.2) none

/-- R163: the claim at issue, or the wait for it. -/
def State.claimNow (s : State) (dest : TldWhere) (d : Nat) (q : TileReq) (len coded : Nat)
    (r : Except (Nat × Nat) (Handle × List Byte)) : Except Void State :=
  let c := s.mycore
  match c.claim s.j dest.isB len coded with
  | some c' =>
    let t := (s.setCore s.cur c').updMe fun x => { x with claimWait := none }
    .ok (State.produceTile d (t.tileLoad s.cur s.me.level s.me.wid q dest (some (if dest.isB then c.btl else c.atl)) r))
  | none => .error (.claim dest.isB len coded)

/-- R163: a tile of `len` bytes claims its place, or the context waits for room; one whose entry is invalid when it is offered
again claims nothing, and what it had been given goes. -/
def State.tldRing (s : State) (dest : TldWhere) (d a : Nat) (q : TileReq) : Except Void State := do
  need (q.rows == 128 && q.cols == 128 && q.dst == 0 && !q.form) (s.engineFault a)
  let level := s.me.level
  let r := s.tileEntries s.cur level q dest false
  need (!s.entriesWait s.cur q r.2 && !r.1.tileWaits s.cur level q r.2) (.stall .mem)
  let isB := dest.isB
  match r.2 with
  | .error _ =>
    let t := (r.1.updMyCore fun c => c.unclaim s.j).updMe fun x => { x with claimWait := none }
    pure (State.produceTile d (t.tileLoad s.cur level s.me.wid q dest none r.2))
  | .ok h =>
    let len := roundUp (q.len h.1 true h.2) 128
    let coded := if h.1.kind == 4 then numAt h.2 8 4 else 0
    let c := r.1.mycore
    need (!c.ringMoving) (.stall .mem)
    need (len ≤ c.half) (s.engineFault a)
    match s.me.claimed with
    | some (b, off) =>
      if b == isB && c.claimFits b off len then
        let t := r.1.updMe fun x => { x with claimed := none, claimWait := none }
        pure (State.produceTile d (t.tileLoad s.cur level s.me.wid q dest (some off) r.2))
      else (r.1.updMyCore fun c => c.unclaim s.j).claimNow dest d q len coded r.2
    | none => r.1.claimNow dest d q len coded r.2

/-- R163: a tile to the scratchpad. -/
def State.tldScratch (s : State) (d : Nat) (q : TileReq) : Except Void State := do
  let level := s.me.level
  let r := s.tileEntries s.cur level q .scratch false
  need (!s.entriesWait s.cur q r.2 && !r.1.tileWaits s.cur level q r.2) (.stall .mem)
  match r.2 with
  | .error _ => pure ()
  | .ok h => s.scrOk q.dst (q.len h.1 false h.2) 128
  pure (State.produceTile d (r.1.tileLoad s.cur level s.me.wid q .scratch none r.2))

/-- R163. -/
def execTld (w : TldWhere) (a b : SSrc) (d : BitVec 6) (s : State) : Host.Outcome State Fault Refusal :=
  slot s (orHold s.accessOk do
    let x ← s.readS a
    let y ← s.readS b
    s.accessOk
    need (tileFields x.toNat 0) (s.engineFault x.toNat)
    need (tileFields 0 y.toNat) (s.engineFault y.toNat)
    let q := tileReq x.toNat y.toNat
    match w with
    | .scratch => s.tldScratch d.toNat q
    | _ => s.tldRing w d.toNat x.toNat q)

/-- R237: what the waiting ring tld of a context asks for, from the bundle it waits at. -/
def execTldRingClaim (core ctx : Nat) (s : State) : Host.Outcome State Fault Refusal :=
  match (s.ctx core ctx).claimWait with
  | none => .next s
  | some (b, len, coded) =>
    let c := s.core core
    match c.claim ctx b len coded with
    | none => .next s
    | some c' =>
      .next ((s.setCore core c').updCtx core ctx fun x => { x with
        claimWait := none, claimed := some (b, if b then c.btl else c.atl), stall := none })

/-- A tile request completes with 0, or fails with its first cause and its row map (R163, R399). -/
def State.tileEnd (s : State) (n j k : Nat) (p : Prod) (err : Option (Nat × Nat)) (map wid : Nat) : State :=
  match err with
  | none => s.finish n j k p (.value 0)
  | some e => (s.logViol n j (viol wid e.1 e.2)).finish n j k p (memFault e.1 e.2 (some map))

/-- Bytes placed for rows of a scratchpad tile. -/
def Core.putRows (c : Core) (dst stride : Nat) (rows : List (Option (List Byte))) : Core :=
  rows.zipIdx.foldl (fun c r => match r.1 with
    | some bs => c.setScr (dst + r.2 * stride) bs
    | none => c) c

/-- The bytes of a ring tile placed from its offset. -/
def Core.setRows (c : Core) (b : Bool) (off stride : Nat) (rows : List (Option (List Byte))) : Core :=
  rows.zipIdx.foldl (fun c r => match r.1 with
    | some bs => c.setRing b (off + r.2 * stride) bs
    | none => c) c

/-- A tld completes: its rows enter the scratchpad, or the ring where its claim still stands (R163). -/
def Core.tileLand (c : Core) (j : Nat) (o : TileOp) : Core :=
  let b := o.dest.isB
  if o.dest == .scratch then c.putRows o.at_ o.stride o.rows
  else match o.off with
    | none => c
    | some off =>
      if !(if b then c.btiles else c.atiles).any (fun t => t.prod && t.offset == off) then c
      else
        let c := c.setRows b off o.stride o.rows
        if o.err.isNone then c.tileValid j b off o.coded else c.tileFail j b off

/-- R224: a ring tile of context j was outstanding as a handler saved the array: its tld, issued outside that handler,
completes behind the save. -/
def Core.heldBack (c : Core) (j : Nat) (p : Prod) (o : TileOp) : Bool :=
  !o.store && o.dest != .scratch && c.saved.any fun a => (a.by_ != j || decide (p.depth < a.depth)) &&
    a.late.any fun l => l.ringB == o.dest.isB && some l.off == o.off && l.done.isNone

/-- R224: such a tld completes into its claimed ring bytes; the saves keep its outcome, which its tile takes after the reload. -/
def Core.landHeld (c : Core) (o : TileOp) : Core :=
  let b := o.dest.isB
  let off := o.off.getD 0
  let c := (c.setRows b off o.stride o.rows).updTile b off fun t => { t with prod := false }
  { c with saved := c.saved.map fun a => { a with late := a.late.map fun l =>
      if l.ringB == b && l.off == off then { l with done := some o.err.isSome } else l } }

/-- A tld or tst of core n, context j, completes (R163, R164). -/
def State.tileDone (s : State) (n j k : Nat) (p : Prod) (o : TileOp) : State :=
  let land := fun (c : Core) => if o.store then c else if c.heldBack j p o then c.landHeld o else c.tileLand j o
  (s.updCore n land).tileEnd n j k p o.err o.map o.wid

/-- R163. -/
def execTileLoadCompletion (core ctx k : Nat) (s : State) : Host.Outcome State Fault Refusal :=
  match s.prodAt core ctx k with
  | some p =>
    match p.work with
    | .tile o => if o.store then .next s else .next (s.tileDone core ctx k p o)
    | _ => .next s
  | none => .next s

/-- R163, R227: the rows of a store: those whose checks pass are written. -/
def State.tstRows (s : State) (n j level : Nat) (h : Handle) (q : TileReq) :
    List Nat → State × List (Option Unit) × Option (Nat × Nat)
  | [] => (s, [], none)
  | r :: t =>
    let runs := q.runs h r
    match s.checkRow n level h.esz runs with
    | .error e =>
      let y := (s.walked [] (s.vdevOf n) e.2).tstRows n j level h q t
      (y.1, none :: y.2.1, some e)
    | .ok _ =>
      let bs := (s.core n).scr (q.dst + r * q.stride h) (q.cols * h.esz)
      let y := (s.writeRuns n level (ctxNum n j) h.esz runs bs).tstRows n j level h q t
      (y.1, some () :: y.2.1, y.2.2)

/-- The tile operation of a tst of the item with a work identifier: its first failure and its row map. -/
def tstOp (q : TileReq) (wid : Nat) (err : Option (Nat × Nat)) (map : Nat) : TileOp :=
  ⟨true, none, .scratch, q.dst, 0, [], 0, err, map, wid⟩

/-- A tst performed at its memory (R164): its rows' bytes are stores of the context. -/
def State.tileStore (s : State) (n j level : Nat) (q : TileReq) :
    Except (Nat × Nat) (Handle × List Byte) → State × TileOp
  | .error e => (s, tstOp q (s.ctx n j).wid (some e) 0)
  | .ok (h, _) =>
    let op := tstOp q (s.ctx n j).wid
    let s := s.countTile n level .w h.unit ((q.parts h []).filter fun p => (s.checkRow n level h.unit p).isOk)
    if h.kind < 2 then
      let r := s.tstRows n j level h q (List.range q.rows)
      (r.1, op r.2.2 (rowMap r.2.1))
    else if !q.inside h then (s, op none 0)
    else
      let w := 2048 * (if h.kind == 2 then 8 else h.w)
      let bs := (s.core n).scr q.dst (if h.kind == 2 then 16384 else w)
      let va := q.planeVa h w
      match s.tileCheck n level va w with
      | .error e => (s.walked [] (s.vdevOf n) e.2, op (some e) 0)
      | .ok _ => (s.tileWrite n level (ctxNum n j) va (if q.form then bytesToPlanes bs else bs), op none 0)

/-- R91, R164: a tst performed with LWBASE as its slot found it, whatever a cwr of its bundle has written. -/
def State.tstStore (s : State) (r : TstReq) : State × TileOp :=
  let go := fun (s : State) => s.tileStore s.cur s.j r.level (tileReq r.a r.b) r.entries
  let now := s.mycore.lwbase
  if now == r.lwbase then go s
  else
    let o := go (s.updMyCore fun c => { c with lwbase := r.lwbase })
    (o.1.updMyCore fun c => { c with lwbase := now }, o.2)

/-- R97, R164: the source of a tst is read and its rows are stored. -/
def State.tstRun (s : State) (r : TstReq) : State :=
  let o := s.tstStore r
  o.1.updMe fun x => { x with prods := x.prods.modify r.prod fun p => { p with work := .tile o.2 } }

/-- R97, R164: a tst that its bundle has left for after its slots. -/
def State.tstDue (s : State) : State :=
  match s.issue.tst with
  | none => s
  | some r => State.tstRun { s with issue := { s.issue with tst := none } } r

/-- R164. Its source is read after its bundle (R97). -/
def execTst (a b : SSrc) (d : BitVec 6) (s : State) : Host.Outcome State Fault Refusal :=
  slot s (do
    s.ordering
    orHold s.accessOk do
    let x ← s.readS a
    let y ← s.readS b
    s.accessOk
    need (tileFields x.toNat 0) (s.engineFault x.toNat)
    need (tileFields 0 y.toNat) (s.engineFault y.toNat)
    let q := tileReq x.toNat y.toNat
    let level := s.me.level
    let r := s.tileEntries s.cur level q .scratch true
    need (!s.entriesWait s.cur q r.2 && !r.1.tileWaits s.cur level q r.2) (.stall .mem)
    match r.2 with
    | .error _ => pure ()
    | .ok h => s.scrOk q.dst (q.len h.1 false h.2) 128
    let t : TstReq := ⟨x.toNat, y.toNat, level, s.mycore.lwbase, r.2, r.1.me.prods.length⟩
    let s := { State.produceTile d.toNat (r.1, tstOp q s.me.wid none 0) with issue := { s.issue with tst := some t } }
    pure (if s.issue.slots.isEmpty then s.tstDue else s))

/-- R164. -/
def execTileStoreCompletion (core ctx k : Nat) (s : State) : Host.Outcome State Fault Refusal :=
  match s.prodAt core ctx k with
  | some p =>
    match p.work with
    | .tile o => if o.store then .next (s.tileDone core ctx k p o) else .next s
    | _ => .next s
  | none => .next s

/-! ## Scale loads (R165, R123) -/

/-- R165: the count field holds the count less one; 4 × count scales. -/
def execLdsc (a : SSrc) (c : BitVec 8) (s : State) : Host.Outcome State Fault Refusal :=
  let n := c.toNat + 1
  let k := s.mycore
  let waiting := (k.scalesIn.map fun e => e.2.length).sum
  let room := need (decide (k.scales.length + waiting + 4 * n ≤ 1024)) (.stall .scale)
  slot s (orHold (do s.accessOk; room) do
    let x ← s.readS a
    s.accessOk
    s.scrOk x.toNat (8 * n) 8
    room
    let bs := k.scr x.toNat (8 * n)
    let l := tab (4 * n) fun i => BitVec.ofNat 16 (numAt bs (2 * i) 2)
    pure (s.updMyCore fun k => { k with scalesIn := k.scalesIn ++ [(s.j, l)] }))

/-- R165: 128 entries enter the queue; a loaded ldsc stops being outstanding. -/
def execScaleQueueFill (core : Nat) (s : State) : Host.Outcome State Fault Refusal :=
  .next (s.updCore core fun c =>
    match c.scalesIn with
    | [] => c
    | (j, l) :: t =>
      let rest := l.drop 128
      { c with scales := c.scales ++ l.take 128, scalesIn := if rest.isEmpty then t else (j, rest) :: t })

/-- R266: written bytes of a line leave an L1 and merge at their home; they stay in L1, clean (R244). -/
def execWriteBackArrival (core pa : Nat) (s : State) : Host.Outcome State Fault Refusal :=
  .next (s.l1WriteBack core fun l => l.pa == pa / 512)

end Sys2Proof.Machine
end

