-- ==== Sys2Proof/Machine/Control.lean ====
section
/-! DEFINITION. Machine/Control.lean: what a bundle requests for the boundary after it: traps, returns, suspension,
parking, end and pre-emption (R83-R90, R97, R169, R337-R347, R381). -/

namespace Sys2Proof.Machine

open Sys2Proof

/-! ## Conditions -/

/-- R83: no landing of the running code is outstanding and no play of the context is open. -/
def Core.settled (c : Core) (j : Nat) : Bool :=
  let x := c.ctx j
  !(x.flights.any fun f => f.home == x.depth) && !c.play.any fun p => p.ctx == j

/-- R84, R85, R347: producers and unit operations of the context are outstanding. -/
def Core.busy (c : Core) (j : Nat) : Bool := !(c.ctx j).prods.isEmpty || c.unitBusy j

/-- R89: what a return waits for. -/
def Core.returnBusy (c : Core) (j : Nat) : Bool := (c.ctx j).owes || c.unitBusy j

/-- R85: the lowest register left empty-faulted. -/
def Ctx.anyFaulted (x : Ctx) : Option Nat := (List.range 64).find? fun c => x.feS c == .faulted

/-- R85: the deferred fault that an end raises: of the lowest register left empty-faulted, or of an original of s60-s63 that a
user-level handler's copy hides (R204). -/
def Ctx.faultAtEnd (x : Ctx) : Option Void :=
  let y := { x with uih := false }
  (x.anyFaulted.map x.deferred).or (y.anyFaulted.map y.deferred)

/-- A software trap (R88). -/
def softTrap (code : Nat) : Raise := ⟨0x30, code, 0, none, none, false⟩

/-- R392: bytes of frame k that the returning bundle's own stores changed, as they were before it. -/
def State.undone (s : State) (k : Nat) : List Host.Cell :=
  match s.issue.before with
  | none => []
  | some c => frameDiff s.j k c.pool s.mycore.pool

/-! ## Taking the requests -/

/-- R169: a tbwait that does not park: its register gets the result, at once where the phase has passed. -/
def State.waitBar (s : State) (dst : Nat) (l : Local) (seen : Nat) : State :=
  let b := barrierOf (s.localRead l 16)
  let w : Work := .tbwait l.space l.loc l.off seen
  if b.phase == seen then s.produce dst w none
  else
    let t := s.produceNow dst w b.result
    if s.barWide l then t.l1Acquire s.cur else t

/-- A request of the context whose waits are over is carried out. -/
def State.carry (s : State) (n j : Nat) (c : Ctl) : State :=
  let x := s.ctx n j
  let s := s.updCtx n j fun x => { x with pend := .none }
  match c with
  | .none => s
  | .trap code => s.takeTrap n j (softTrap code) x.pc
  | .pmark => (s.updCtx n j fun x => x.count 0x10B 1).leaveAt n j x.pc .light
  | .suspend => s.leaveAt n j x.pc .suspend
  | .heavy => (s.updCtx n j fun x => x.count 0x10C 1).leaveAt n j x.pc .heavy
  | .park dst sp loc off seen => s.leaveAt n j x.pc (.park sp loc off seen dst)
  | .endItem addr =>
    match x.faultAtEnd with
    | some (.trap r) => s.takeTrap n j r addr
    | _ => if x.level == 1 then s.endFailed n j else s.endNow n j
  | .reti undo => s.retiNow n j undo
  | .uret undo => s.uretNow n j undo

/-- What a request waits for (R84, R85, R89, R90, R202). -/
def Core.mustWait (c : Core) (j : Nat) : Ctl → Bool
  | .none => false
  | .trap _ => c.unitBusy j
  | .reti _ | .uret _ => c.returnBusy j
  | .pmark | .suspend | .endItem _ | .park _ _ _ _ _ | .heavy => c.busy j

/-- R268: the record or the save area of a context lies in a page that migrates. -/
def State.recordMoving (s : State) (n j : Nat) : Bool :=
  (s.ctx n j).held.any fun h => s.anyMoving (s.vdevOf n) [(h.addr, recBytes), (h.save, 0x3B900)]

/-- What a request waits for: its context, and at the points that write a record its memory (log 77). -/
def State.mustWait (s : State) (n j : Nat) (c : Ctl) : Bool :=
  (s.core n).mustWait j c || (match c with
    | .pmark | .suspend | .endItem _ | .park _ _ _ _ _ | .heavy => s.recordMoving n j
    | _ => false)

/-- A request carried out, or left pending until its waits are over. -/
def State.carryOrWait (s : State) (n j : Nat) (c : Ctl) : State :=
  if s.mustWait n j c then s.updCtx n j fun x => { x with pend := c } else s.carry n j c

/-- R19, R428: the cycles that the bundle being issued occupies. -/
def State.bundleCycles (s : State) : Nat := if s.issue.beat then s.beatCycles s.cur else 1

/-- R381: an interrupt is due at the boundary after the bundle being issued, a timer within its cycles too. -/
def State.interruptFirst (s : State) : Bool :=
  let x := s.me
  x.timer || x.notice || s.timerWithin s.cur s.j s.bundleCycles

/-- R84, R321: a pmark of the bundle being issued is refused while a request is pending: the context is not settled, or what
comes before it at the boundary is taken (R381; log 22). -/
def State.markRefused (s : State) : Bool :=
  let x := s.me
  s.issue.mark && x.preq && x.level != 1 && !x.uih && (!s.mycore.settled s.j || (match s.issue.ctl with
    | .pmark => s.interruptFirst
    | .trap _ => true
    | _ => false))

/-- R341: what a bundle of an item that has been killed still does at its boundary: it ends, and nothing else. -/
def Ctl.live (killed : Bool) : Ctl → Ctl
  | .endItem a => .endItem a
  | c => if killed then .none else c

/-- The boundary after a bundle: its tst, then its request, unless its item has been killed (R341), the context is not settled
for it (R84, R169) or an interrupt comes first (R381). A return does not see the stores of its bundle, the tst's among them
(R392). -/
def State.boundary (s : State) : State :=
  let s := s.tstDue
  let c := s.issue.ctl.live s.me.killed
  let s := if s.markRefused then s.updMe fun x => x.count 0x10A 1 else s
  let s := { s with issue := { s.issue with ctl := .none, mark := false } }
  let n := s.cur
  let j := s.j
  let x := s.me
  match c with
  | .none => s
  | .pmark =>
    if x.preq && x.level != 1 && !x.uih && s.mycore.settled j && !s.interruptFirst then s.carryOrWait n j c else s
  | .park dst sp loc off seen =>
    if s.mycore.settled j && x.level == 0 && !x.uih then s.carryOrWait n j c else s.waitBar dst ⟨sp, loc, off⟩ seen
  | .reti _ => s.carryOrWait n j (.reti (s.undone (x.depth - 1)))
  | .uret _ => s.carryOrWait n j (.uret (s.undone 0))
  | c => s.carryOrWait n j c

/-- Which request of one bundle is taken (R381; log 22). -/
def Ctl.rank : Ctl → Nat
  | .none => 0 | .heavy => 0 | .pmark => 1 | .suspend => 2 | .park _ _ _ _ _ => 3 | .endItem _ => 4
  | .trap _ => 5 | .reti _ => 5 | .uret _ => 5

/-- A slot requests an effect for the boundary after its bundle; as the last slot it reaches the boundary. -/
def State.request (s : State) (c : Ctl) : State :=
  let old := s.issue.ctl
  let r := if old.rank ≤ c.rank then (c, old) else (old, c)
  let mark := match c with
    | .pmark => true
    | _ => s.issue.mark
  let s := { s with issue := { s.issue with ctl := r.1, mark := mark } }
  let s := match r.2 with
    | .park dst sp loc off seen => s.waitBar dst ⟨sp, loc, off⟩ seen
    | _ => s
  if s.issue.slots.isEmpty then s.boundary else s

end Sys2Proof.Machine
end

