-- ==== Sys2Proof/Machine/Scalar.lean ====
section
/-! DEFINITION. Machine/Scalar.lean: the S class (R67-R78). -/

namespace Sys2Proof.Machine

open Sys2Proof

/-! ## The shapes of S instructions -/

/-- Two sources and a result (R67). -/
def State.alu2 (s : State) (d : SDst) (a b : SSrc) (n : Nat) (f : Word → Word → Word) : Except Void State := do
  let x ← s.readS a
  let y ← s.readS b
  pure (s.landX (sdst d) (f x y) n 0)

/-- One source and a result. -/
def State.alu1 (s : State) (d : SDst) (a : SSrc) (n : Nat) (f : Word → Word) : Except Void State := do
  let x ← s.readS a
  pure (s.landX (sdst d) (f x) n 0)

/-- The old destination, two sources and a result (R56). -/
def State.alu3 (s : State) (d : SDst) (a b : SSrc) (n : Nat) (f : Word → Word → Word → Word) : Except Void State := do
  let o ← s.readD d
  let x ← s.readS a
  let y ← s.readS b
  pure (s.landX (sdst d) (f o x y) n 0)

/-- R52, R74: a predicate result; a write of p0 is discarded where it lands. -/
def State.landP (s : State) (p : BitVec 3) (v : Bool) : State :=
  s.landX (.p p.toNat) (BitVec.ofNat 64 (b2n v)) 1 0

/-- R31: the rounding mode the bundle issues with. -/
def State.mode (s : State) : RMode := RMode.ofCode s.rd.rm

/-! ## Values -/

/-- R67: SignExt(imm9, 8). -/
def imm9 (i : BitVec 9) : Word := i.signExtend 64

/-- R69: shifts by an unsigned amount. -/
def shlW (a n : Word) : Word := if n.toNat < 64 then a <<< n.toNat else 0
def shrW (a n : Word) : Word := if n.toNat < 64 then a >>> n.toNat else 0
def sarW (a n : Word) : Word := a.sshiftRight (min n.toNat 64)

/-- R70: division, its corners fixed. -/
def divW (a b : Word) : Word := if b == 0 then BitVec.allOnes 64 else BitVec.ofInt 64 (a.toInt.tdiv b.toInt)
def divuW (a b : Word) : Word := if b == 0 then BitVec.allOnes 64 else a / b
def remW (a b : Word) : Word := if b == 0 then a else BitVec.ofInt 64 (a.toInt.tmod b.toInt)
def remuW (a b : Word) : Word := if b == 0 then a else a % b

/-- R68: the high halves of a product. -/
def mulhW (a b : Word) : Word := BitVec.ofInt 64 (a.toInt * b.toInt / 2 ^ 64)
def mulhuW (a b : Word) : Word := BitVec.ofNat 64 (a.toNat * b.toNat / 2 ^ 64)

/-- R68: minima and maxima. -/
def minW (a b : Word) : Word := if a.toInt ≤ b.toInt then a else b
def maxW (a b : Word) : Word := if a.toInt ≤ b.toInt then b else a
def minuW (a b : Word) : Word := if a.toNat ≤ b.toNat then a else b
def maxuW (a b : Word) : Word := if a.toNat ≤ b.toNat then b else a

/-- R71: leading and trailing zeros and one bits. -/
def clzN (n : Nat) : Nat := if n == 0 then 64 else 63 - Nat.log2 n
def ctzFrom : Nat → Nat → Nat
  | 0, _ => 0
  | k + 1, n => if n % 2 == 1 then 0 else 1 + ctzFrom k (n / 2)
def popFrom : Nat → Nat → Nat
  | 0, _ => 0
  | k + 1, n => n % 2 + popFrom k (n / 2)

/-- R73: bits taken by extr, extru and ins: offset and length. -/
def fieldOf (b : Word) : Nat × Nat :=
  let off := bits b 6 0
  let wid := if 64 ≤ off then 0 else bits b 14 8
  (off, min wid (64 - off))

def extruW (a b : Word) : Word :=
  let f := fieldOf b
  BitVec.ofNat 64 (a.toNat / 2 ^ f.1 % 2 ^ f.2)

def extrW (a b : Word) : Word :=
  let f := fieldOf b
  sext64 f.2 (a.toNat / 2 ^ f.1 % 2 ^ f.2)

def insW (d a b : Word) : Word :=
  let f := fieldOf b
  let m : Word := BitVec.ofNat 64 (2 ^ f.2 - 1)
  if f.2 == 0 then d else (d &&& ~~~(m <<< f.1)) ||| ((a &&& m) <<< f.1)

/-- R74: a compare condition. -/
def condW (c : Cond) (a b : Word) : Bool :=
  match c with
  | .eq => a == b
  | .ne => a != b
  | .lt => decide (a.toInt < b.toInt)
  | .ltu => decide (a.toNat < b.toNat)
  | .le => decide (a.toInt ≤ b.toInt)
  | .leu => decide (a.toNat ≤ b.toNat)

/-- R77: bits 31:0 as an FP32 value. -/
def f32 (a : Word) : FV := value .fp32 (a.toNat % 2 ^ 32)

/-- R78: sfcvt's result in a register. -/
def sfcvtW (mode : RMode) (f g : CvtFmt) (u : Bool) (a : Word) : Word × FlagSet :=
  let r := convert mode f g u (a.toNat % 2 ^ widthOf f)
  (if g == .i32 then sext64 32 r.1 else BitVec.ofNat 64 r.1, r.2)

/-- Two sources and an FP32 result with flags, landing in 4 ticks (R77). -/
def State.fp2 (s : State) (d : SDst) (a b : SSrc) (f : RMode → FV → FV → Nat × FlagSet) : Except Void State := do
  let x ← s.readS a
  let y ← s.readS b
  let r := f s.mode (f32 x) (f32 y)
  pure (s.landX (sdst d) (BitVec.ofNat 64 r.1) 4 r.2)

/-! ## The instructions -/

/-- R43. -/
def execNopS (s : State) : Host.Outcome State Fault Refusal := .next s

/-- R68. -/
def execAdd (d : BitVec 6) (a b : SSrc) (s : State) : Host.Outcome State Fault Refusal :=
  slot s (s.alu2 d a b 1 (· + ·))

/-- R68. -/
def execSub (d : BitVec 6) (a b : SSrc) (s : State) : Host.Outcome State Fault Refusal :=
  slot s (s.alu2 d a b 1 (· - ·))

/-- R68. -/
def execMul (d : BitVec 6) (a b : SSrc) (s : State) : Host.Outcome State Fault Refusal :=
  slot s (s.alu2 d a b 3 (· * ·))

/-- R68. -/
def execMulh (d : BitVec 6) (a b : SSrc) (s : State) : Host.Outcome State Fault Refusal :=
  slot s (s.alu2 d a b 3 mulhW)

/-- R68. -/
def execMulhu (d : BitVec 6) (a b : SSrc) (s : State) : Host.Outcome State Fault Refusal :=
  slot s (s.alu2 d a b 3 mulhuW)

/-- R70. -/
def execDiv (d : BitVec 6) (a b : SSrc) (s : State) : Host.Outcome State Fault Refusal :=
  slot s (s.alu2 d a b 12 divW)

/-- R70. -/
def execDivu (d : BitVec 6) (a b : SSrc) (s : State) : Host.Outcome State Fault Refusal :=
  slot s (s.alu2 d a b 12 divuW)

/-- R70. -/
def execRem (d : BitVec 6) (a b : SSrc) (s : State) : Host.Outcome State Fault Refusal :=
  slot s (s.alu2 d a b 12 remW)

/-- R70. -/
def execRemu (d : BitVec 6) (a b : SSrc) (s : State) : Host.Outcome State Fault Refusal :=
  slot s (s.alu2 d a b 12 remuW)

/-- R68. -/
def execAndS (d : BitVec 6) (a b : SSrc) (s : State) : Host.Outcome State Fault Refusal :=
  slot s (s.alu2 d a b 1 (· &&& ·))

/-- R68. -/
def execOrS (d : BitVec 6) (a b : SSrc) (s : State) : Host.Outcome State Fault Refusal :=
  slot s (s.alu2 d a b 1 (· ||| ·))

/-- R68. -/
def execXorS (d : BitVec 6) (a b : SSrc) (s : State) : Host.Outcome State Fault Refusal :=
  slot s (s.alu2 d a b 1 (· ^^^ ·))

/-- R68. -/
def execAndn (d : BitVec 6) (a b : SSrc) (s : State) : Host.Outcome State Fault Refusal :=
  slot s (s.alu2 d a b 1 (fun x y => x &&& ~~~y))

/-- R69. -/
def execShl (d : BitVec 6) (a b : SSrc) (s : State) : Host.Outcome State Fault Refusal :=
  slot s (s.alu2 d a b 1 shlW)

/-- R69. -/
def execShr (d : BitVec 6) (a b : SSrc) (s : State) : Host.Outcome State Fault Refusal :=
  slot s (s.alu2 d a b 1 shrW)

/-- R69. -/
def execSar (d : BitVec 6) (a b : SSrc) (s : State) : Host.Outcome State Fault Refusal :=
  slot s (s.alu2 d a b 1 sarW)

/-- R73. -/
def execExtr (d : BitVec 6) (a b : SSrc) (s : State) : Host.Outcome State Fault Refusal :=
  slot s (s.alu2 d a b 1 extrW)

/-- R73. -/
def execExtru (d : BitVec 6) (a b : SSrc) (s : State) : Host.Outcome State Fault Refusal :=
  slot s (s.alu2 d a b 1 extruW)

/-- R68. -/
def execMinS (d : BitVec 6) (a b : SSrc) (s : State) : Host.Outcome State Fault Refusal :=
  slot s (s.alu2 d a b 1 minW)

/-- R68. -/
def execMaxS (d : BitVec 6) (a b : SSrc) (s : State) : Host.Outcome State Fault Refusal :=
  slot s (s.alu2 d a b 1 maxW)

/-- R68. -/
def execMinu (d : BitVec 6) (a b : SSrc) (s : State) : Host.Outcome State Fault Refusal :=
  slot s (s.alu2 d a b 1 minuW)

/-- R68. -/
def execMaxu (d : BitVec 6) (a b : SSrc) (s : State) : Host.Outcome State Fault Refusal :=
  slot s (s.alu2 d a b 1 maxuW)

/-- R68. -/
def execAddi (d : BitVec 6) (a : SSrc) (i : BitVec 9) (s : State) : Host.Outcome State Fault Refusal :=
  slot s (s.alu1 d a 1 (· + imm9 i))

/-- R68. -/
def execAndi (d : BitVec 6) (a : SSrc) (i : BitVec 9) (s : State) : Host.Outcome State Fault Refusal :=
  slot s (s.alu1 d a 1 (· &&& imm9 i))

/-- R68. -/
def execOri (d : BitVec 6) (a : SSrc) (i : BitVec 9) (s : State) : Host.Outcome State Fault Refusal :=
  slot s (s.alu1 d a 1 (· ||| imm9 i))

/-- R68. -/
def execXori (d : BitVec 6) (a : SSrc) (i : BitVec 9) (s : State) : Host.Outcome State Fault Refusal :=
  slot s (s.alu1 d a 1 (· ^^^ imm9 i))

/-- R69. -/
def execShli (d : BitVec 6) (a : SSrc) (i : BitVec 6) (s : State) : Host.Outcome State Fault Refusal :=
  slot s (s.alu1 d a 1 (· <<< i.toNat))

/-- R69. -/
def execShri (d : BitVec 6) (a : SSrc) (i : BitVec 6) (s : State) : Host.Outcome State Fault Refusal :=
  slot s (s.alu1 d a 1 (· >>> i.toNat))

/-- R69. -/
def execSari (d : BitVec 6) (a : SSrc) (i : BitVec 6) (s : State) : Host.Outcome State Fault Refusal :=
  slot s (s.alu1 d a 1 (·.sshiftRight i.toNat))

/-- R71. -/
def execClz (d : BitVec 6) (a : SSrc) (s : State) : Host.Outcome State Fault Refusal :=
  slot s (s.alu1 d a 1 (fun x => BitVec.ofNat 64 (clzN x.toNat)))

/-- R71. -/
def execCtz (d : BitVec 6) (a : SSrc) (s : State) : Host.Outcome State Fault Refusal :=
  slot s (s.alu1 d a 1 (fun x => BitVec.ofNat 64 (ctzFrom 64 x.toNat)))

/-- R71. -/
def execPopc (d : BitVec 6) (a : SSrc) (s : State) : Host.Outcome State Fault Refusal :=
  slot s (s.alu1 d a 1 (fun x => BitVec.ofNat 64 (popFrom 64 x.toNat)))

/-- R73. -/
def execIns (d : BitVec 6) (a b : SSrc) (s : State) : Host.Outcome State Fault Refusal :=
  slot s (s.alu3 d a b 1 insW)

/-- R71. -/
def execMovi (d : BitVec 6) (i : BitVec 16) (s : State) : Host.Outcome State Fault Refusal :=
  .next (s.landX (sdst d) (i.signExtend 64) 1 0)

/-- R71: d is the destination's old value, read in mode 0. -/
def execMovhi (d : BitVec 6) (i : BitVec 16) (s : State) : Host.Outcome State Fault Refusal :=
  slot s (do
    let o ← s.readD d
    pure (s.landX (sdst d) ((o <<< 16) ||| i.setWidth 64) 1 0))

/-- R72, R76: the predicate landed before the bundle. -/
def execSelP0P3 (d : BitVec 6) (a b : SSrc) (p : BitVec 2) (s : State) : Host.Outcome State Fault Refusal :=
  slot s (s.alu2 d a b 1 fun x y => if s.rd.pred p.toNat then x else y)

/-- R72, R76. -/
def execSelP4P7 (d : BitVec 6) (a b : SSrc) (p : BitVec 2) (s : State) : Host.Outcome State Fault Refusal :=
  slot s (s.alu2 d a b 1 fun x y => if s.rd.pred (p.toNat + 4) then x else y)

/-- R72. -/
def execLea (d : BitVec 6) (a b : SSrc) (h : BitVec 2) (s : State) : Host.Outcome State Fault Refusal :=
  slot s (s.alu2 d a b 1 fun x y => x + (y <<< h.toNat))

/-- R74. -/
def execCmp (p : BitVec 3) (c : Cond) (a b : SSrc) (s : State) : Host.Outcome State Fault Refusal :=
  slot s (do
    let x ← s.readS a
    let y ← s.readS b
    pure (s.landP p (condW c x y)))

/-- R74. -/
def execCmpi (p : BitVec 3) (c : Cond) (a : SSrc) (i : BitVec 9) (s : State) : Host.Outcome State Fault Refusal :=
  slot s (do
    let x ← s.readS a
    pure (s.landP p (condW c x (imm9 i))))

/-- R75. -/
def execPand (p q r : BitVec 3) (s : State) : Host.Outcome State Fault Refusal :=
  .next (s.landP p (s.rd.pred q.toNat && s.rd.pred r.toNat))

/-- R75. -/
def execPor (p q r : BitVec 3) (s : State) : Host.Outcome State Fault Refusal :=
  .next (s.landP p (s.rd.pred q.toNat || s.rd.pred r.toNat))

/-- R75. -/
def execPxor (p q r : BitVec 3) (s : State) : Host.Outcome State Fault Refusal :=
  .next (s.landP p (s.rd.pred q.toNat != s.rd.pred r.toNat))

/-- R75. -/
def execPnot (p q : BitVec 3) (s : State) : Host.Outcome State Fault Refusal :=
  .next (s.landP p (!s.rd.pred q.toNat))

/-- R77. -/
def execSfadd (d : BitVec 6) (a b : SSrc) (s : State) : Host.Outcome State Fault Refusal :=
  slot s (s.fp2 d a b (fadd .fp32))

/-- R77. -/
def execSfmul (d : BitVec 6) (a b : SSrc) (s : State) : Host.Outcome State Fault Refusal :=
  slot s (s.fp2 d a b (fmul .fp32))

/-- R77: one rounding, into the old destination. -/
def execSfma (d : BitVec 6) (a b : SSrc) (s : State) : Host.Outcome State Fault Refusal :=
  slot s (do
    let o ← s.readD d
    s.fp2 d a b fun m x y => ffma .fp32 m x y (f32 o))

/-- R78. -/
def execSfcvt (d : BitVec 6) (a : SSrc) (f g : CvtFmt) (u : Bool) (s : State) : Host.Outcome State Fault Refusal :=
  slot s (do
    let x ← s.readS a
    let r := sfcvtW s.mode f g u x
    pure (s.landX (sdst d) r.1 2 r.2))

end Sys2Proof.Machine
end

