-- ==== Sys2Proof/Machine/Queues.lean ====
section
/-! DEFINITION. Machine/Queues.lean: slot-queue headers, packet images and their checks, the data a copy engine moves, and
the end of a packet (R172-R179, R272-R277). -/

namespace Sys2Proof.Machine

open Sys2Proof

/-! ## Slot-queue headers (R272, R273) -/

/-- The fields of a slot-queue header. -/
structure QHdr where
  wi : Nat
  ri : Nat
  base : Nat
  log : Nat
  eng : Nat
  deriving DecidableEq, Repr

/-- R273: a header; none where it is invalid. -/
def qHdr (bs : List Byte) (launchQ : Bool) : Option QHdr :=
  let h : QHdr := ⟨numAt bs 0 8, numAt bs 8 8, numAt bs 16 8, numAt bs 24 1, numAt bs 25 1⟩
  if h.log == 0 || 16 < h.log || h.base % 4096 != 0 || 2 ^ 52 ≤ h.base || numAt bs 26 6 != 0
      || (if launchQ then h.eng != 0 else 16 ≤ h.eng) then none
  else some h

def QHdr.size (h : QHdr) : Nat := 2 ^ h.log
def QHdr.slot (h : QHdr) (n : Nat) : Nat := h.base + 64 * (n % h.size)
def QHdr.seq (h : QHdr) (n : Nat) : Nat := n / h.size % 65536

/-- R171: no slot is free. -/
def QHdr.full (h : QHdr) : Bool := decide (h.size ≤ (h.wi + 2 ^ 64 - h.ri) % 2 ^ 64)

/-- R273: a CQTAB or LQTAB register in use, and the header address it gives. -/
def tabOn (w : Word) : Bool := bit w 63
def tabVa (w : Word) : Nat := bits w 51 6 * 64

/-- R274: the header is one of the virtual device's enabled copy queues. -/
def VDev.hasQueue (d : VDev) (va : Nat) : Bool :=
  (List.range 64).any fun i => tabOn (d.cqtab.get 0 i) && tabVa (d.cqtab.get 0 i) == va

/-- R275: the queue that an agent serves next, round-robin by virtual device and queue number (log 87), of those that
have a slot to take. -/
def nextTurn (last : Option (Nat × Nat)) (ready : List (Nat × Nat)) : Option (Nat × Nat) :=
  let lt := fun (a b : Nat × Nat) => decide (a.1 < b.1 ∨ (a.1 = b.1 ∧ a.2 < b.2))
  let least := fun (l : List (Nat × Nat)) => l.foldl (fun m x => match m with
    | none => some x
    | some y => if lt x y then some x else some y) none
  match last with
  | none => least ready
  | some l => (least (ready.filter (lt l))).or (least ready)

/-- R275: the virtual device and queue that an agent served last. -/
def State.lastServed (s : State) (agent : Nat) : Option (Nat × Nat) := (s.turns.find? fun e => e.1 == agent).map (·.2)

/-! ## Packet images (R172-R175) -/

def pkKind (p : List Byte) : Nat := numAt p 0 1
def pkFlags (p : List Byte) : Nat := numAt p 1 1
def pkUirq (p : List Byte) : Bool := pkFlags p % 2 == 1
def pkOrdered (p : List Byte) : Bool := pkFlags p / 2 % 2 == 1

/-- R172: KIND, FLAGS, SCOPE and the zero bits of STATUS; KIND 4 only from coll. -/
def headOk (p : List Byte) (coll : Bool) : Bool :=
  let k := pkKind p
  decide (1 ≤ k ∧ k ≤ 5) && (k != 4 || coll) && fld (pkFlags p) 7 5 == 0 && decide (fld (pkFlags p) 4 2 ≤ 4)
    && fld (numAt p 4 4) 31 12 == 0

/-- R173-R175: the fields a body marks zero (log 24). -/
def bodyZero (p : List Byte) : Bool :=
  match pkKind p with
  | 1 => numAt p 22 2 == 0
  | 2 | 3 => numAt p 40 24 == 0
  | 5 => numAt p 33 1 == 0 && numAt p 38 2 == 0 && numAt p 44 20 == 0
  | _ => true

/-- R7, R151: a local address of a packet that lies in its virtual device and fits. -/
def State.pkLocal (s : State) (me : Option Nat) (v w n align : Nat) : Option Local :=
  match localOf me w with
  | none => none
  | some l => if s.localVdev l == v && s.localFits l n align then some l else none

/-- R239: a range of a gather or scatter packet, which lies in a scratchpad. -/
def State.pkScr (s : State) (me : Option Nat) (v w n align : Nat) : Option Local :=
  (s.pkLocal me v w n align).filter fun l => l.space == 0

/-- Bytes a packet's barrier takes: with the bitmap after it for a gather or scatter (R175). -/
def pkTbBytes (p : List Byte) : Nat := if pkKind p == 2 || pkKind p == 3 then 32 else 16

/-- The barrier of a packet; none where it names none or names none it may use. -/
def State.pkTb (s : State) (me : Option Nat) (v : Nat) (p : List Byte) : Option Local :=
  if numAt p 8 8 == 2 ^ 64 - 1 then none else s.pkLocal me v (numAt p 8 8) (pkTbBytes p) 16

def State.pkTbOk (s : State) (me : Option Nat) (v : Nat) (p : List Byte) : Bool :=
  numAt p 8 8 == 2 ^ 64 - 1 || (s.pkTb me v p).isSome

/-- R173: the fields of a copy packet. -/
def cpExt (p : List Byte) : List Nat := tab 5 fun d => numAt p (54 + 2 * d) 2
def cpEsz (p : List Byte) : Nat := 2 ^ numAt p 20 1
def cpEp (p : List Byte) (dst : Bool) : Nat := numAt p (if dst then 18 else 16) 2
def cpLocal (p : List Byte) (dst : Bool) : Bool := cpEp p dst / 2 ^ 15 == 1
def cpOrg (p : List Byte) (dst : Bool) : List Nat := tab 5 fun d => numAt p ((if dst then 39 else 24) + 3 * d) 3
def cpCount (p : List Byte) : Nat := (cpExt p).foldl (· * ·) 1

/-- R173: the local address of a local endpoint. DESIGN CHOICE (log 108): bits 20:10 of origin 1 are ignored,
and so are origins 2 to 4. -/
def cpWord (p : List Byte) (dst : Bool) : Nat :=
  let o := cpOrg p dst
  let a := nth 0 o 1
  fld a 23 22 * 2 ^ 62 + fld a 21 21 * 2 ^ 61 + fld a 9 0 * 2 ^ 48 + nth 0 o 0

def cpOk (p : List Byte) : Bool :=
  let nd := numAt p 21 1
  decide (numAt p 20 1 ≤ 2 ∧ 1 ≤ nd ∧ nd ≤ 5) && fld (cpEp p false) 14 12 == 0 && fld (cpEp p true) 14 12 == 0
    && !(cpLocal p false && cpLocal p true) && ((cpExt p).drop nd).all (· == 1) && bodyZero p

/-- R174, R240: the fields of a transform packet; copy ignores BLK. -/
def trOp (p : List Byte) : Nat := numAt p 32 1
def trBlk (p : List Byte) : Nat := numAt p 34 2
def trRaw (p : List Byte) : Nat := numAt p 36 2
def trN (p : List Byte) : Nat := numAt p 40 4
def trSrcBytes (p : List Byte) : Nat := 128 * if trOp p == 2 then trBlk p else trRaw p
def trDstBytes (p : List Byte) : Nat := 128 * if trOp p == 1 then trBlk p else trRaw p
def trOk (p : List Byte) : Bool :=
  decide (trOp p ≤ 2 ∧ 1 ≤ trRaw p ∧ trRaw p ≤ 64) && (trOp p == 0 || decide (1 ≤ trBlk p ∧ trBlk p ≤ 64)) && bodyZero p

/-! ## Gather and scatter (R175, R177) -/

/-- The handle descriptor. -/
def gDesc (p : List Byte) : Nat := numAt p 24 8
def gLen (d : Nat) : Nat := fld d 63 48
def gBase (d : Nat) : Nat := fld d 47 16
def gDim (d : Nat) : Nat := fld d 14 12
def gOk (d : Nat) : Bool := fld d 15 15 == 0 && decide (1 ≤ gDim d ∧ gDim d ≤ 4)

/-- The active lanes of an index vector. -/
def activeLanes (idx : List Nat) : List Nat := (List.range 128).filter fun i => nth 0xFFFFFFFF idx i != 0xFFFFFFFF
def rankOf (idx : List Nat) (i : Nat) : Nat := ((activeLanes idx).filter fun k => decide (k < i)).length

/-- The bits of lanes. -/
def laneBits (l : List Nat) : Nat := (l.map fun i => 2 ^ i).sum

/-- R177, R260: the entry of a gather or scatter; dense or tiled layout only. -/
def State.gHandle (s : State) (v desc : Nat) (user : Bool) : State × Except (Nat × Nat) Handle :=
  let r := s.readHandle v (fld desc 11 0) user
  match r.2 with
  | .error e => (r.1, .error e)
  | .ok h => if 1 < h.kind then (r.1, .error (5, s.handleVa v (fld desc 11 0))) else (r.1, .ok h)

/-- Elements of a row, and its bytes rounded up to 128. -/
def Handle.rowLen (h : Handle) (base len : Nat) : Nat := if len == 0 then h.e 0 - base else len
def Handle.rs (h : Handle) (base len : Nat) : Nat := roundUp (h.rowLen base len * h.esz) 128

/-- The runs of a row at coordinate c of dimension dim. -/
def Handle.rowRuns (h : Handle) (base len dim c : Nat) : List (Option Nat × Nat) :=
  joinRuns h.esz (tab (h.rowLen base len) fun e =>
    h.elem (tab 5 fun d => if d == 0 then base + e else if d == dim then c else 0))

/-- The row accesses of a gather or scatter: those of lanes inside the extent that translate (log 34). -/
def Handle.gAccesses (h : Handle) (d : Nat) (idx : List Nat) : List (Nat × Nat) :=
  (activeLanes idx).flatMap fun i =>
    let c := nth 0 idx i
    if h.e (gDim d) ≤ c then []
    else (h.rowRuns (gBase d) (gLen d) (gDim d) c).filterMap fun r => r.1.map fun a => (a, r.2 * h.esz)

/-- R173-R175, R178: the expected bytes of an image; 0 where it is invalid (log 25). An index vector begins at a multiple of
4 (log 85). -/
def State.pkExp (s : State) (me : Option Nat) (v : Nat) (user : Bool) (p : List Byte) : State × Nat :=
  match pkKind p with
  | 1 => (s, if cpOk p then cpCount p * cpEsz p else 0)
  | 5 => (s, if trOk p then trN p * trDstBytes p else 0)
  | 2 | 3 =>
    if !gOk (gDesc p) || !bodyZero p then (s, 0)
    else match s.pkScr me v (numAt p 16 8) 512 4 with
      | none => (s, 0)
      | some l =>
        let bs := s.localRead l 512
        let idx := tab 128 fun i => numAt bs (4 * i) 4
        let r := s.gHandle v (gDesc p) user
        match r.2 with
        | .error _ => (r.1, 0)
        | .ok h => (r.1, (activeLanes idx).length * h.rs (gBase (gDesc p)) (gLen (gDesc p)))
  | _ => (s, 0)

/-! ## Pages translated and pinned (R176, R266) -/

/-- The 64 KB pages of a list of accesses. -/
def pagesOf (l : List (Nat × Nat)) : List Nat :=
  (l.flatMap fun x => (piecesOf x.1 x.2).map fun p => p.1 / 65536).eraseDups

/-- The translations of those pages, and their frames. -/
def State.holdPages (s : State) (v : Nat) (l : List (Nat × Nat)) : List TlbEntry × List Nat :=
  let ts := (pagesOf l).filterMap fun g => (s.lookup [] v (g * 65536)).map fun t => (g * 65536, t)
  (ts.map fun x => ⟨v, x.1 / x.2.size * x.2.size, x.2.size, BitVec.ofNat 64 x.2.pte⟩, ts.map fun x => x.2.pa / 65536)

/-- The walks that find those translations (R264). -/
def State.walkPages (s : State) (v : Nat) (l : List (Nat × Nat)) : State :=
  (pagesOf l).foldl (fun s g => s.walked [] v (g * 65536)) s

/-! ## Engine accesses to device memory -/

/-- What the accesses of a packet or operation are made with. -/
structure Eng where
  tlb : List TlbEntry
  vdev : Nat
  user : Bool
  own : Nat

/-- A row's runs read strictly: its bytes, or the first refusal. -/
def State.engRow (s : State) (e : Eng) (esz : Nat) (pad : List Byte) :
    List (Option Nat × Nat) → State × Except (Nat × Nat) (List Byte)
  | [] => (s, .ok [])
  | (a, k) :: t =>
    let r := match a with
      | some va => s.devReadT e.tlb e.vdev va (k * esz) e.user
      | none => (s, .ok ((List.replicate k pad).flatten))
    match r.2 with
    | .error x => (r.1, .error x)
    | .ok bs =>
      let q := r.1.engRow e esz pad t
      match q.2 with
      | .error x => (q.1, .error x)
      | .ok bs' => (q.1, .ok (bs ++ bs'))

/-- The checks of a row's runs. -/
def State.engCheck (s : State) (e : Eng) (esz : Nat) (a : Acc) : List (Option Nat × Nat) → Except (Nat × Nat) Unit
  | [] => .ok ()
  | (none, _) :: t => s.engCheck e esz a t
  | (some va, k) :: t =>
    match s.devCheck e.tlb e.vdev va (k * esz) a e.user with
    | .error x => .error x
    | .ok _ => s.engCheck e esz a t

/-- A row's runs written; elements outside the extents are not. -/
def State.engWrite (s : State) (e : Eng) (esz : Nat) : List (Option Nat × Nat) → List Byte → State
  | [], _ => s
  | (a, k) :: t, bs =>
    let s' := match a with
      | some va => (s.devWriteT e.tlb e.vdev va (bs.take (k * esz)) e.user e.own).1
      | none => s
    s'.engWrite e esz t (bs.drop (k * esz))

/-- R178: one gather lane: its row of rs bytes, its bitmap bit, and the failure to log. -/
def State.gatherLane (s : State) (e : Eng) (h : Handle) (base len dim c : Nat) :
    State × List Byte × Bool × Option (Nat × Nat) :=
  let pad := toBytes h.esz h.pad
  let rs := h.rs base len
  let fill := tab rs fun i => nth 0 pad (i % h.esz)
  if h.e dim ≤ c then (s, fill, true, none)
  else
    let r := s.engRow e h.esz pad (h.rowRuns base len dim c)
    match r.2 with
    | .error x => (r.1, fill, true, some x)
    | .ok bs => (r.1, bs ++ fill.drop bs.length, false, none)

/-- R179: one scatter lane from its row. -/
def State.scatterLane (s : State) (e : Eng) (h : Handle) (base len dim c : Nat) (row : List Byte) :
    State × Bool × Option (Nat × Nat) :=
  if h.e dim ≤ c then (s, true, none)
  else
    let runs := h.rowRuns base len dim c
    match s.engCheck e h.esz .w runs with
    | .error x => (s.walked e.tlb e.vdev x.2, true, some x)
    | .ok _ => (s.engWrite e h.esz runs row, false, none)

/-- R398: the kind an engine logs for a memory cause. -/
def engKind : Nat → Nat
  | 1 => 7 | 2 => 1 | 3 => 2 | 4 => 3 | _ => 4

/-- R260: the CODE of a packet for a memory cause. -/
def causeCode : Nat → Nat
  | 1 => 3 | 2 => 4 | 5 => 2 | _ => 6

/-- R398: the kind logged for a CODE. -/
def codeKind : Nat → Nat
  | 1 => 9 | 2 => 10 | 3 => 7 | 4 => 1 | 5 => 11 | _ => 3

/-! ## The end of a packet (R176, R275, R277, R285) -/

/-- The agent that serves a packet (R219). -/
def Packet.agent (p : Packet) : Nat := 0x8000 + p.eng

/-- The core whose SELF the packet's local addresses mean. -/
def Packet.me (p : Packet) : Option Nat := p.poster.map (· / 4)

def Packet.own (p : Packet) : Nat := p.poster.getD 0xFFF

def Packet.access (p : Packet) : Eng := ⟨p.tlb, p.vdev, p.level == 0, p.own⟩

/-- A packet ends with a CODE, 0 for success: the failure is logged, its bytes are counted or subtracted with
ERR, STATE is written, which interrupts the poster under UIRQ, and RI advances. -/
def State.packetEnd (s : State) (p : Packet) (code addr : Nat) : State :=
  let s := if code == 0 || code == 7 then s
    else s.queueLog p.vdev p.hdr addr (codeKind code) false p.agent p.wid p.own
  let s := if p.exp == 0 && code == 0 then s
    else s.engineBar p.vdev (s.pkTb p.me p.vdev p.image) 0 p.exp (code != 0)
  let s := s.putStatus p.vdev p.slot (if code == 0 then 2 else 3 + 16 * code) p.own
    (if pkUirq p.image then p.poster else none)
  let s := { s.unpin p.pinned with packets := s.packets.filter fun q => !(q.vdev == p.vdev && q.slot == p.slot) }
  s.advanceRi p.vdev p.hdr false p.own

end Sys2Proof.Machine
end

