-- ==== Sys2Proof/Machine/Collectives.lean ====
section
/-! DEFINITION. Machine/Collectives.lean: bit-plane collectives: parties, planes, relays, cancels, truncations and error
notices (R180-R184, R312-R316). -/

namespace Sys2Proof.Machine

open Sys2Proof

/-! ## Images and parties (R180, R181) -/

/-- R180: the planes of each tile. -/
def collPlanes (p : List Byte) : Nat := if numAt p 17 1 == 0 then 8 else numAt p 17 1

/-- A party as its coll posts it. -/
def collParty (v core hdr slot wid own : Nat) (p : List Byte) : Party :=
  { vdev := v, slot := slot, hdr := hdr, eng := 0, wid := wid, group := numAt p 32 8, tag := numAt p 28 4,
    rank := numAt p 19 1, core := core, rcore := core, op := numAt p 16 1, planes := collPlanes p,
    npart := numAt p 18 1, root := numAt p 20 1, tcount := numAt p 24 4, scope := fld (pkFlags p) 4 2, src := numAt p 40 4, dst := numAt p 44 4,
    cnt := numAt p 48 4, tb := numAt p 8 8, entries := [], taken := false, announced := false, done := false,
    sent := [], stopped := [], own := own }

/-- R180: rank q receives the block of rank k. -/
def Party.moves (p : Party) (k q : Nat) : Bool := k != q && (p.op != 0 || k == p.root)

/-- R181: tiles received. -/
def Party.received (p : Party) : Nat :=
  ((List.range p.npart).filter fun k => p.moves k p.rank).length * p.tcount

/-- R181: the expectation of the party's barrier. -/
def Party.expect (p : Party) : Nat := p.received * p.planes * 2048

/-- R181: blocks of SRC that the operation reads. -/
def Party.srcBlocks (p : Party) : Nat := if p.op == 2 then p.npart else if p.op == 1 || p.rank == p.root then 1 else 0

/-- R180, R181: the checks coll makes of its image before it writes anything. -/
def State.collOk (s : State) (core : Nat) (img : List Byte) : Bool :=
  let p := collParty 0 core 0 0 0 0 img
  let sp := (s.core core).spsz
  let tile := 16384 * p.tcount
  headOk img true && pkKind img == 4 && decide (p.op ≤ 2) && numAt img 17 1 != 1 && decide (p.planes ≤ 8)
    && decide (2 ≤ p.npart ∧ p.npart ≤ 64 ∧ p.rank < p.npart ∧ p.root < p.npart ∧ 1 ≤ p.tcount ∧ p.tcount ≤ 64)
    && numAt img 21 3 == 0 && numAt img 52 12 == 0 && p.src % 2048 == 0 && p.dst % 2048 == 0 && p.cnt % 8 == 0
    && decide (p.dst + p.npart * tile ≤ sp ∧ p.cnt + 8 * p.npart * p.tcount ≤ sp)
    && (p.srcBlocks == 0 || decide (p.src + p.srcBlocks * tile ≤ sp))

/-- The counter of tile t of rank k's block. -/
def Party.counter (p : Party) (k t : Nat) : Nat := p.cnt + 8 * (k * p.tcount + t)

/-- R181: the counters of the receive layout. -/
def State.writeCounters (s : State) (p : Party) : State :=
  (List.range (p.npart * p.tcount)).foldl (fun s i =>
    let a := p.cnt + 8 * i
    let k := i / max p.tcount 1
    if (s.core p.core).spsz < a + 8 then s
    else (s.clearWide p.core a).setPlane p.core a ⟨p.tag, false, 0, false, p.planes, if p.moves k p.rank then 0 else 8⟩) s

/-- R312: the party's packet failed as it was taken: it takes no part, and a packet of its rank may start anew. -/
def Party.refused (p : Party) : Bool := p.taken && p.entries.isEmpty

/-- R312: two packets of one collective. -/
def Party.same (a b : Party) : Bool := a.vdev == b.vdev && a.group == b.group && a.tag == b.tag

def State.updParty (s : State) (p : Party) (f : Party → Party) : State :=
  { s with parties := s.parties.map fun x => if x == p then f x else x }

/-- The party of a rank whose packet has been taken. -/
def State.partyOf (s : State) (v group tag rank : Nat) : Option Party :=
  s.parties.find? fun x => x.vdev == v && x.group == group && x.tag == tag && x.rank == rank && x.taken && !x.refused

/-- R312: the latest announcement of rank q. -/
def State.receiver (s : State) (p : Party) (q : Nat) : Option Party :=
  s.parties.find? fun x => x.same p && x.rank == q && x.announced

/-- R180: the package that entry q names, 0xFFFF for this one. -/
def Party.peer (p : Party) (q : Nat) : Nat := nth 0 p.entries q % 2 ^ 16

/-- R312: the announcement of rank q, a party on another package: what its planes need of it here. -/
def State.farReceiver (s : State) (p : Party) (q : Nat) : Option Party :=
  (s.remotes.find? fun x => x.peer == p.peer q && x.vdev == p.vdev && x.group == p.group && x.tag == p.tag && x.rank == q).map
    fun x => { p with rank := q, rcore := x.core, dst := x.dst, cnt := x.cnt }

/-! ## Relays (R313) -/

/-- Entry q names a relay, and which. -/
def Party.relay (p : Party) (q : Nat) : Option Nat :=
  let e := nth 0 p.entries q
  if fld e 31 31 == 1 then some (fld e 30 25) else none

/-- Who sends rank k's block to rank q. -/
def Party.hop (p : Party) (k q : Nat) : Nat :=
  match p.relay q with
  | some r => if r == k then k else r
  | none => k

/-- The ranks to which the party forwards rank k's block. -/
def Party.down (p : Party) (k : Nat) : List Nat :=
  if k == p.rank then []
  else (List.range p.npart).filter fun q => q != p.rank && p.moves k q && p.hop k q == p.rank

/-- R313: the entries name parties and relays a collective may use; the party's own core, and every party of this package,
lies in the virtual device (R7). -/
def State.entriesOk (s : State) (p : Party) : Bool :=
  (List.range p.npart).all fun q =>
    let e := nth 0 p.entries q
    e / 2 ^ 32 == 0 && ((q != p.rank && e % 2 ^ 16 != 0xFFFF) || s.vdevOf (fld e 24 16) == p.vdev) &&
      match p.relay q with
      | none => true
      | some r => p.op != 2 && decide (r < p.npart) && r != q && (p.relay r).isNone

/-- A transfer of rank k's tile t to rank q. -/
def planeKey (k q t : Nat) : Nat := (k * 64 + q) * 64 + t

/-! ## Freezing a counter (R182, R184, R314, R315) -/

/-- The party whose counter lies at an address of a core, with its block and tile. -/
def State.counterOf (s : State) (core addr : Nat) : Option (Party × Nat × Nat) :=
  match s.parties.find? (fun p => p.rcore == core && !p.refused &&
    decide (p.cnt ≤ addr ∧ addr < p.cnt + 8 * p.npart * p.tcount)) with
  | some p => let i := (addr - p.cnt) / 8; some (p, i / max p.tcount 1, i % max p.tcount 1)
  | none => none

/-- The barrier of a party. -/
def Party.bar (p : Party) : Option Local := if p.tb == 2 ^ 64 - 1 then none else localOf (some p.core) p.tb

/-- The messages a freeze sends: a cancel one hop upstream; a truncation or an error notice to each party the
tile is forwarded to. -/
def State.freezeTell (s : State) (p : Party) (k t : Nat) (pl : Plane) : State :=
  let msg := fun (dst : Nat) => (⟨p.vdev, p.group, p.tag, p.rank, dst, k, t, pl.planes⟩ : PlaneMsg)
  let up := if pl.cancelled && pl.reason == 0 && p.moves k p.rank then [msg (p.hop k p.rank)] else []
  let down := (p.down k).map msg
  let s := { s with cancels := s.cancels ++ up }
  let s := if pl.err then { s with notices := s.notices ++ down } else { s with truncs := s.truncs ++ down }
  s.updParty p fun x => { x with stopped := x.stopped ++ (p.down k).map fun q => planeKey k q t }

/-- A counter that is not frozen freezes: ERR, or CANCELLED with a reason (a plcancel none whose planes have all landed,
R184); the bytes of its missing planes leave its barrier, none where more planes stand than CAP (log 97). -/
def State.freeze (s : State) (core addr : Nat) (err : Bool) (reason : Nat) : State :=
  let c := (s.core core).plane addr
  if c.frozen || (!err && reason == 0 && c.cap == c.planes) then s
  else
    let c' : Plane := if err then { c with err := true } else { c with cancelled := true, reason := reason }
    let s := (s.setPlane core addr c').evAll core
    match s.counterOf core addr with
    | none => s
    | some (p, k, t) =>
      let s := s.engineBar p.vdev p.bar 0 ((c.cap - c.planes) * 2048) err
      if p.taken && reason == 0 then s.freezeTell p k t c' else s

/-! ## Planes (R182, R312) -/

/-- R312: a failed plane is not written: its bytes leave the barrier with ERR, and the receiving queue's LOG
records an address. -/
def State.planeFail (s : State) (r : Party) (kind addr : Nat) : State :=
  (s.engineBar r.vdev r.bar 0 2048 true).queueLog r.vdev r.hdr addr kind false (0x8000 + r.eng) r.wid r.own

/-- R315: a relay whose counter of a tile no longer exists forwards no further plane of it, and says so once. -/
def State.relayStop (s : State) (r : Party) (k t : Nat) : State :=
  let qs := (r.down k).filter fun q => !r.stopped.contains (planeKey k q t)
  let msgs := qs.map fun dst => (⟨r.vdev, r.group, r.tag, r.rank, dst, k, t, 0⟩ : PlaneMsg)
  { s with notices := s.notices ++ msgs }.updParty r fun x => { x with stopped := x.stopped ++ qs.map fun q => planeKey k q t }

/-- Where plane m of tile t of rank k's block lands at party r. -/
def Party.landAt (r : Party) (k t m : Nat) : Nat := r.dst + 16384 * (k * r.tcount + t) + 2048 * m

/-- Plane m of tile t of rank k's block arrives at party r; `wide` says that its landing is a release of cluster scope or
wider (R182, R313). A plane that fails for its region leaves its counter as it is (R312), but at a relay it freezes the counter
with ERR where that still exists (R315); one that could not be read freezes it anywhere (R182; log 88). -/
def State.planeArrive (s : State) (r : Party) (k t m : Nat) (wide : Bool) (data : Option (List Byte)) : State :=
  let n := r.rcore
  let addr := r.counter k t
  let at_ := r.landAt k t m
  let fits := fun (a len : Nat) => decide (a + len ≤ (s.core n).spsz)
  let barIn := match r.bar with
    | some l => s.localFits l 16 16
    | none => true
  let c := (s.core n).plane addr
  let lost := fun (a : Nat) =>
    if (r.down k).isEmpty then s.planeFail r 2 a
    else (s.freeze n addr true 0).queueLog r.vdev r.hdr a 2 false (0x8000 + r.eng) r.wid r.own
  if s.vdevOf n != r.vdev then s
  else if !fits addr 8 then (s.planeFail r 2 addr).relayStop r k t
  else if c.tag != r.tag then s.planeFail r 6 addr
  else if c.frozen then s
  else if !barIn then lost (r.tb % 2 ^ 32)
  else if !fits at_ 2048 then lost at_
  else match data with
    | none => s.freeze n addr true 0
    | some bs =>
      let s := s.updCore n fun c => c.setScr at_ bs
      let s := if wide then s.markWide n addr true else s
      let s := (s.setPlane n addr { c with planes := c.planes + 1 }).evAll n
      s.engineBar r.vdev r.bar 0 2048 false

/-- R230: the counter of a tile, or the party's barrier, lies in a unit in transition. -/
def State.counterHeld (s : State) (r : Party) (k t : Nat) : Bool :=
  (s.core r.rcore).scrChanging (r.counter k t) 8 || r.bar.any fun l => s.localMoving l 16

/-- R230: a plane aimed at a unit in transition, or counted on a barrier in one, waits for the conversion. -/
def State.planeHeld (s : State) (r : Party) (k t m : Nat) : Bool :=
  (s.core r.rcore).scrChanging (r.landAt k t m) 2048 || s.counterHeld r k t

/-- R229: a counter that is neither frozen nor complete, the barrier of whose party lies in a unit in transition. -/
def State.freezeHeld (s : State) (core addr : Nat) : Bool :=
  let c := (s.core core).plane addr
  !(c.frozen || c.cap == c.planes) && (s.counterOf core addr).any fun q => q.1.bar.any fun l => s.localMoving l 16

/-- A transfer of one plane: the sender, the receiver and its package, block and tile. -/
structure Job where
  p : Party
  r : Party
  peer : Nat
  k : Nat
  t : Nat

/-- The transfers of a party to receivers that its engine holds announcements of; `direct` picks its own
block's, the most significant planes of every tile first (R180), otherwise those it forwards. -/
def State.jobsOf (s : State) (p : Party) (direct : Bool) : List Job :=
  if !p.taken || p.done then []
  else
    let dests := fun (k : Nat) =>
      if direct then (if k == p.rank then (List.range p.npart).filter fun q => p.moves k q && p.hop k q == k else [])
      else p.down k
    (List.range p.npart).flatMap fun k => (dests k).flatMap fun q =>
      let here := p.peer q == 0xFFFF
      match if here then s.receiver p q else s.farReceiver p q with
      | none => []
      | some r =>
        let open_ := (List.range p.tcount).filter fun t => !p.stopped.contains (planeKey k q t)
        let sent := fun (t : Nat) => p.sent.get 0 (planeKey k q t)
        let least := open_.foldl (fun m t => min m (sent t)) p.planes
        open_.filterMap fun t =>
          let have_ := if direct then (if sent t == least then p.planes else 0)
            else
              let c := (s.core p.rcore).plane (p.counter k t)
              if c.tag == p.tag then min c.planes p.planes else 0
          if have_ ≤ sent t || (here && s.planeHeld r k t (sent t)) then none else some ⟨p, r, p.peer q, k, t⟩

/-- The next plane of a transfer is sent, and arrives (R312, R313). DESIGN CHOICE (log 114): a plane whose source no longer lies in
the region of its sender or relay is delivered as one that failed, and no further plane of its tile is sent. A direct
landing is a release at the sender's SCOPE, a forwarded one at the receiver's (R182, R313). One for another package leaves
over Causeway (R425). -/
def State.runJob (s : State) (j : Job) : State :=
  let key := planeKey j.k j.r.rank j.t
  let m := j.p.sent.get 0 key
  let direct := j.k == j.p.rank
  let from_ := if direct then j.p.core else j.p.rcore
  let a := if direct then j.p.src + 16384 * ((if j.p.op == 2 then j.r.rank * j.p.tcount else 0) + j.t) + 2048 * m
    else j.p.landAt j.k j.t m
  let data := if s.vdevOf from_ == j.p.vdev && decide (a + 2048 ≤ (s.core from_).spsz) then some ((s.core from_).scr a 2048)
    else none
  let s := s.updParty j.p fun x => { x with
    sent := x.sent.set key (m + 1), stopped := if data.isNone then x.stopped ++ [key] else x.stopped }
  if j.peer == 0xFFFF then s.planeArrive j.r j.k j.t m ((if direct then j.p.scope else j.r.scope) != 0) data
  else { s with wire := s.wire ++ [⟨j.peer, j.p.vdev, if data.isSome then .plane else .failed, j.p.group, j.p.tag, j.p.rank,
    j.r.rank, j.k, j.t, m, j.p.scope != 0, 0, 0, 0, data.getD []⟩] }

/-- R181: every plane the party sends has been accepted or cancelled. -/
def Party.sentAll (p : Party) : Bool :=
  let over_ := fun (k q : Nat) => (List.range p.tcount).all fun t =>
    p.stopped.contains (planeKey k q t) || decide (p.planes ≤ p.sent.get 0 (planeKey k q t))
  p.taken && (List.range p.npart).all fun k =>
    if k == p.rank then (List.range p.npart).all fun q => !(p.moves k q && p.hop k q == k) || over_ k q
    else (p.down k).all (over_ k)

/-! ## Other packages (R312, R425; log 33) -/

def WireKind.code : WireKind → Nat
  | .announce => 0 | .plane => 1 | .failed => 2 | .cancel => 3 | .truncation => 4 | .notice => 5

def wireKind : Nat → Option WireKind
  | 0 => some .announce | 1 => some .plane | 2 => some .failed | 3 => some .cancel | 4 => some .truncation | 5 => some .notice
  | _ => none

/-- A message as it crosses Causeway. -/
def Wire.bytes (w : Wire) : List Byte :=
  [w.kind.code, w.src, w.dst, w.block, w.tile, w.planes, b2n w.wide, 0].flatMap (toBytes 1) ++ toBytes 8 w.group
    ++ toBytes 4 w.tag ++ toBytes 4 w.core ++ toBytes 4 w.at_ ++ toBytes 4 w.cnt ++ w.data

/-- The message that bytes of a peer are, for a virtual device. -/
def wireOf (peer vdev : Nat) (bs : List Byte) : Option Wire :=
  (wireKind (numAt bs 0 1)).map fun k => ⟨peer, vdev, k, numAt bs 8 8, numAt bs 16 4, numAt bs 1 1, numAt bs 2 1, numAt bs 3 1,
    numAt bs 4 1, numAt bs 5 1, numAt bs 6 1 == 1, numAt bs 20 4, numAt bs 24 4, numAt bs 28 4, (bs.drop 32).take 2048⟩

/-- The announced party of this package that a plane of a peer is for. -/
def State.wireParty (s : State) (w : Wire) : Option Party :=
  s.parties.find? fun x => x.vdev == w.vdev && x.group == w.group && x.tag == w.tag && x.rank == w.dst && x.announced
    && decide (w.block < x.npart ∧ w.tile < x.tcount ∧ w.planes < 8)

/-- R230: a plane of a peer waits for the conversion of the unit it lands in. -/
def State.wireHeld (s : State) (w : Wire) : Bool :=
  (w.kind == .plane || w.kind == .failed) && (s.wireParty w).any fun r => s.planeHeld r w.block w.tile w.planes

/-- A message of a peer arrives: an announcement is held, the latest of a rank (R312); a plane lands, at the sender's SCOPE or,
forwarded, at the receiver's; the others go their way (R314, R315). -/
def State.wireArrive (s : State) (w : Wire) : State :=
  let msg : PlaneMsg := ⟨w.vdev, w.group, w.tag, w.src, w.dst, w.block, w.tile, w.planes⟩
  match w.kind with
  | .announce => { s with remotes := ⟨w.peer, w.vdev, w.group, w.tag, w.src, w.core, w.at_, w.cnt⟩ :: s.remotes.filter fun x =>
      !(x.vdev == w.vdev && x.group == w.group && x.tag == w.tag && x.rank == w.src) }
  | .plane | .failed =>
    match s.wireParty w with
    | none => s
    | some r => s.planeArrive r w.block w.tile w.planes (if w.block == w.src then w.wide else r.scope != 0)
        (if w.kind == .plane then some w.data else none)
  | .cancel => { s with cancels := s.cancels ++ [msg] }
  | .truncation => { s with truncs := s.truncs ++ [msg] }
  | .notice => { s with notices := s.notices ++ [msg] }

/-- R312: a party whose packet has been taken is announced: to the engines of this package, and over Causeway to the others. -/
def State.announce (s : State) (p : Party) : State :=
  let far := (List.range p.npart).filter fun q => q != p.rank && p.peer q != 0xFFFF
  { s.updParty p fun x => { x with announced := true } with
    wire := s.wire ++ far.map fun q =>
      ⟨p.peer q, p.vdev, .announce, p.group, p.tag, p.rank, q, 0, 0, 0, false, p.rcore, p.dst, p.cnt, []⟩ }

/-- A message to a party of another package leaves over Causeway; none where its receiver is on this package. -/
def State.sendFar (s : State) (k : WireKind) (m : PlaneMsg) : Option State :=
  (s.partyOf m.vdev m.group m.tag m.src).bind fun p =>
    if p.peer m.dst == 0xFFFF then none
    else some { s with wire := s.wire ++
      [⟨p.peer m.dst, m.vdev, k, m.group, m.tag, m.src, m.dst, m.block, m.tile, m.planes, false, 0, 0, 0, []⟩] }

/-- R312: once every party that GROUP names on this package has ended, the announcements of the other packages' parties are
those of the next collective (log 33). -/
def State.dropRemotes (s : State) (p : Party) : State :=
  let mine := s.parties.filter fun x => x.same p && x.taken
  let over_ := mine.any fun x => !x.refused && (List.range x.npart).all fun q =>
    (q != x.rank && x.peer q != 0xFFFF) || mine.any fun y => y.rank == q && y.done
  if over_ then { s with
    remotes := s.remotes.filter fun x => !(x.vdev == p.vdev && x.group == p.group && x.tag == p.tag) }
  else s

/-- A truncation or an error notice reaches its receiver, once that party's packet has been taken; a counter of
another TAG, or of another device, is not its own. -/
def State.downNotice (s : State) (m : PlaneMsg) (err : Bool) : Option State :=
  (s.partyOf m.vdev m.group m.tag m.dst).map fun p =>
    let a := p.counter m.block m.tile
    let c := (s.core p.rcore).plane a
    if s.vdevOf p.rcore != p.vdev || c.tag != p.tag || decide ((s.core p.rcore).spsz < a + 8) then s else s.freeze p.rcore a err 1

/-- R314, R315: a truncation or an error notice goes on its way: over Causeway, or to its receiver here. -/
def State.downTell (s : State) (m : PlaneMsg) (err : Bool) : Option State :=
  (s.sendFar (if err then .notice else .truncation) m).or (s.downNotice m err)

/-- R230: what such a message reaches on this package lies in a unit in transition. -/
def State.noticeHeld (s : State) (m : PlaneMsg) : Bool :=
  (s.sendFar .notice m).isNone && (s.partyOf m.vdev m.group m.tag m.dst).any fun p => s.counterHeld p m.block m.tile

/-- R314, R315: the truncations and error notices under way that a predicate picks reach their receivers, ahead of what would
take the counters of their collective away; one whose receiver's packet has not been taken goes on waiting for it. -/
def State.flushTells (s : State) (p : PlaneMsg → Bool) : State :=
  let mine := fun (m : PlaneMsg) => p m && (s.downTell m false).isSome
  let go := fun (err : Bool) (s : State) (m : PlaneMsg) => (s.downTell m err).getD s
  let t := { s with truncs := s.truncs.filter fun m => !mine m, notices := s.notices.filter fun m => !mine m }
  (s.notices.filter mine).foldl (go true) ((s.truncs.filter mine).foldl (go false) t)

/-- A message of the collective that a party belongs to. -/
def Party.told (p : Party) (m : PlaneMsg) : Bool := m.vdev == p.vdev && m.group == p.group && m.tag == p.tag

/-- R314, R315: those to a party that posts anew, whose coll rewrites its counters. -/
def State.flushTo (s : State) (p : Party) : State := s.flushTells fun m => p.told m && m.dst == p.rank

/-! ## Taking a collective packet (R181, R312) -/

/-- The packet of a party is taken: a collective of its TAG and GROUP that every party has ended is over, once what it has under
way has arrived (R314, R315); the entries are known, and cancels made before the take are told. -/
def State.takeParty (s : State) (p : Party) (entries : List Nat) (eng : Nat) : State :=
  let old := s.parties.filter fun x => x.same p && x.taken
  let over_ := old.any (fun x => x.rank == p.rank) && old.all (·.done)
  let s := if over_ then
      let s := s.flushTells p.told
      { s with parties := s.parties.filter (fun x => !(x.same p && x.taken)), cancels := s.cancels.filter fun m => !p.told m }
    else s
  let p' := { p with entries := entries, eng := eng, taken := true, rcore := fld (nth 0 entries p.rank) 24 16 }
  let s := { s with parties := p' :: s.parties.filter fun x => x != p }
  (List.range (p.npart * p.tcount)).foldl (fun s i =>
    let k := i / max p.tcount 1
    let t := i % max p.tcount 1
    let c := (s.core p'.rcore).plane (p'.counter k t)
    match s.parties.find? (fun x => x.same p' && x.rank == p'.rank && x.taken) with
    | some q => if c.frozen && c.tag == p.tag then s.freezeTell q k t c else s
    | none => s) s

end Sys2Proof.Machine
end

