-- ==== Sys2Proof/Machine/Trans.lean ====
section
/-! DEFINITION. Machine/Trans.lean: the correctly rounded transcendental functions of R107. Each irrational result is
enclosed by integers at 2^-w, the precision doubled until both ends round alike; exact results are rounded
from their exact value. -/

namespace Sys2Proof.Machine

open Sys2Proof

/-- The first precision w whose enclosure f w, scaled by 2^(n - w), decides the rounding: its odd
neighbours inside the enclosure round alike. -/
def refine (mode : RMode) (neg : Bool) (n : Int) (f : Nat → Nat × Nat) : List Nat → Nat × FlagSet
  | [] => roundReal .fp32 mode false neg (2 * (f 2048).1 + 1) 1 (n - 2049)
  | w :: t =>
    let b := f w
    let lo := roundReal .fp32 mode false neg (2 * b.1 + 1) 1 (n - w - 1)
    let hi := roundReal .fp32 mode false neg (2 * b.2 - 1) 1 (n - w - 1)
    if lo == hi then lo else refine mode neg n f t

def precisions : List Nat := [256, 512, 1024, 2048]

/-- A quotient rounded up. -/
def divUp (a b : Nat) : Nat := (a + b - 1) / b

/-- Enclosure of e^x at 2^-w for a fixed-point x below 1: Taylor terms rounded both ways, k terms left. -/
def expTerms (w xl xh : Nat) : Nat → Nat → Nat → Nat → Nat → Nat → Nat × Nat
  | 0, _, _, _, sl, sh => (sl, sh + 2)
  | k + 1, i, tl, th, sl, sh =>
    let tl' := tl * xl / (2 ^ w * i)
    let th' := divUp (th * xh) (2 ^ w * i)
    expTerms w xl xh k (i + 1) tl' th' (sl + tl') (sh + th')

def expSmall (w xl xh : Nat) : Nat × Nat := expTerms w xl xh (w / 2 + 8) 1 (2 ^ w) (2 ^ w) (2 ^ w) (2 ^ w)

/-- Squared n times at 2^-w. -/
def squares (w : Nat) : Nat → Nat × Nat → Nat × Nat
  | 0, b => b
  | n + 1, b => squares w n (b.1 * b.1 / 2 ^ w, divUp (b.2 * b.2) (2 ^ w))

/-- Enclosure of e^x for x = m × 2^e below 256. -/
def expFix (m : Nat) (e : Int) (w : Nat) : Nat × Nat :=
  let x := if 0 ≤ e then m * 2 ^ (w + e.toNat) else m * 2 ^ w / 2 ^ (-e).toNat
  squares w 8 (expSmall w (x / 256) (x / 256 + 1))

/-- Enclosure of 2 artanh(a / b) at 2^-w for a / b at most 1/3: k terms left from index i, the power p. -/
def atanhTerms (w a b : Nat) : Nat → Nat → Nat → Nat → Nat → Nat → Nat × Nat
  | 0, _, _, _, sl, sh => (2 * sl, 2 * sh + 2)
  | k + 1, i, pl, ph, sl, sh =>
    atanhTerms w a b k (i + 2) (pl * a * a / (b * b)) (divUp (ph * a * a) (b * b)) (sl + pl / i) (sh + divUp ph i)

def logFix (a b w : Nat) : Nat × Nat :=
  atanhTerms w a b (w / 3 + 4) 1 (2 ^ w * a / b) (divUp (2 ^ w * a) b) 0 0

/-- Enclosure of ln 2 = 2 artanh(1/3). -/
def ln2 (w : Nat) : Nat × Nat := logFix 1 3 w

/-- A finite operand compared with an integer bound: m × 2^e ≥ k. -/
def atLeast (m : Nat) (e : Int) (k : Nat) : Bool :=
  if 0 ≤ e then decide (k ≤ m * 2 ^ e.toNat) else decide (k * 2 ^ (-e).toNat ≤ m)

/-- A value just below m × 2^e, and one just above it: nothing representable lies between. -/
def below (mode : RMode) (neg : Bool) (m : Nat) (e : Int) : Nat × FlagSet :=
  roundReal .fp32 mode false neg (m * 2 ^ 64 - 1) 1 (e - 64)
def above (mode : RMode) (neg : Bool) (m : Nat) (e : Int) : Nat × FlagSet :=
  roundReal .fp32 mode false neg (m * 2 ^ 64 + 1) 1 (e - 64)

/-- 1 / A of a nonzero finite A. -/
def rcpFin (mode : RMode) (neg : Bool) (m : Nat) (e : Int) : Nat × FlagSet := roundReal .fp32 mode false neg 1 m (-e)

/-- The integer square root, bit by bit from bit k - 1. -/
def isqrtGo (n : Nat) : Nat → Nat → Nat
  | 0, r => r
  | k + 1, r => if (r + 2 ^ k) * (r + 2 ^ k) ≤ n then isqrtGo n k (r + 2 ^ k) else isqrtGo n k r

def isqrt (n : Nat) : Nat := isqrtGo n (Nat.log2 n / 2 + 1) 0

/-- 1 / √A of a positive finite A: the floor of 2^192 / √m', with a sticky half where inexact. -/
def rsqFin (mode : RMode) (m : Nat) (e : Int) : Nat × FlagSet :=
  let m' := if e % 2 == 0 then m else 2 * m
  let e' := if e % 2 == 0 then e else e - 1
  let q := isqrt (2 ^ 384 / m')
  if q * q * m' == 2 ^ 384 then roundReal .fp32 mode false false q 1 (-192 - e' / 2)
  else roundReal .fp32 mode false false (2 * q + 1) 1 (-193 - e' / 2)

/-- 2^A of a nonzero finite A. -/
def exp2Fin (mode : RMode) (neg : Bool) (m : Nat) (e : Int) : Nat × FlagSet :=
  if atLeast m e 256 then
    if neg then above mode false 1 (-512) else above mode false 1 512
  else
    let t := (-e).toNat
    let a : Int := if 0 ≤ e then (m * 2 ^ e.toNat : Nat) else m
    let a := if neg then -a else a
    let n := a / 2 ^ t
    let r := (a % 2 ^ t).toNat
    if r == 0 then roundReal .fp32 mode false false 1 1 n
    else refine mode false n (fun w =>
      let l := ln2 w
      expSmall w (r * l.1 / 2 ^ t) (divUp (r * l.2) (2 ^ t))) precisions

/-- log₂ A of a positive finite A = 2^n × y with y in [1, 2): n + ln y / ln 2. -/
def log2Fin (mode : RMode) (m : Nat) (e : Int) : Nat × FlagSet :=
  let k := Nat.log2 m
  let n : Int := k + e
  let f := m - 2 ^ k
  if f == 0 then
    if n == 0 then (0, fNone) else roundReal .fp32 mode false (n < 0) n.natAbs 1 0
  else
    -- ln y = 2 artanh((y - 1) / (y + 1)), with y = m / 2^k
    let frac := fun (w : Nat) =>
      let l := logFix f (m + 2 ^ k) w
      let d := ln2 w
      (l.1 * 2 ^ w / d.2, divUp (l.2 * 2 ^ w) d.1)
    if 0 ≤ n then refine mode false 0 (fun w => let b := frac w
      (n.toNat * 2 ^ w + b.1, n.toNat * 2 ^ w + b.2)) precisions
    else refine mode true 0 (fun w => let b := frac w
      (n.natAbs * 2 ^ w - b.2, n.natAbs * 2 ^ w - b.1)) precisions

/-- tanh |A| of a nonzero finite A, with its sign. -/
def tanhFin (mode : RMode) (neg : Bool) (m : Nat) (e : Int) : Nat × FlagSet :=
  if atLeast m e 64 then below mode neg 1 0
  else if !atLeast (m * 2 ^ 40) e 1 then below mode neg m e
  else refine mode neg 0 (fun w =>
    let b := expFix m (e + 1) w
    ((b.1 - 2 ^ w) * 2 ^ w / (b.1 + 2 ^ w), divUp ((b.2 - 2 ^ w) * 2 ^ w) (b.2 + 2 ^ w))) precisions

/-- 1 / (1 + e^(-A)) of a nonzero finite A. -/
def sigFin (mode : RMode) (neg : Bool) (m : Nat) (e : Int) : Nat × FlagSet :=
  if atLeast m e 250 then
    if neg then above mode false 1 (-512) else below mode false 1 0
  else refine mode false 0 (fun w =>
    let b := expFix m e w
    if neg then (2 ^ w * 2 ^ w / (b.2 + 2 ^ w), divUp (2 ^ w * 2 ^ w) (b.1 + 2 ^ w))
    else (b.1 * 2 ^ w / (b.1 + 2 ^ w), divUp (b.2 * 2 ^ w) (b.2 + 2 ^ w))) precisions

/-- R107: the six functions. -/
inductive TransOp where
  | rcp | rsq | exp2 | log2 | tanh | sig
  deriving DecidableEq, Repr

def f32One (neg : Bool) : Nat := signed .fp32 neg 0x3F800000
def f32Inf (neg : Bool) : Nat := signed .fp32 neg 0x7F800000
def f32Zero (neg : Bool) : Nat := signed .fp32 neg 0

/-- R107: one lane, the special cases first. -/
def trans (op : TransOp) (mode : RMode) (x : Nat) : Nat × FlagSet :=
  let bad : Nat × FlagSet := (canonNaN .fp32, fNV)
  match value .fp32 x with
  | .nan _ sig => (canonNaN .fp32, nvIf sig)
  | .inf neg =>
    match op with
    | .rcp => (f32Zero neg, fNone)
    | .rsq => if neg then bad else (0, fNone)
    | .exp2 => if neg then (0, fNone) else (f32Inf false, fNone)
    | .log2 => if neg then bad else (f32Inf false, fNone)
    | .tanh => (f32One neg, fNone)
    | .sig => if neg then (0, fNone) else (f32One false, fNone)
  | .fin neg 0 _ =>
    match op with
    | .rcp | .rsq => (f32Inf neg, fDZ)
    | .exp2 => (f32One false, fNone)
    | .log2 => (f32Inf true, fNone)
    | .tanh => (f32Zero neg, fNone)
    | .sig => (0x3F000000, fNone)
  | .fin neg m e =>
    match op with
    | .rcp => rcpFin mode neg m e
    | .rsq => if neg then bad else rsqFin mode m e
    | .exp2 => exp2Fin mode neg m e
    | .log2 => if neg then bad else log2Fin mode m e
    | .tanh => tanhFin mode neg m e
    | .sig => sigFin mode neg m e

end Sys2Proof.Machine
end

