-- ==== Sys2Proof/Machine/Vector.lean ====
section
/-! DEFINITION. Machine/Vector.lean: the V class (R98-R113). -/

namespace Sys2Proof.Machine

open Sys2Proof

/-! ## The shapes of V instructions -/

/-- A lane-wise result of two registers. -/
def lanes2 (f : W32 → W32 → W32) (a b : Lanes) : Lanes := tab 128 fun i => f (lane a i) (lane b i)

/-- Results with flags: the lanes and the OR of the flags (R98). -/
def lanesOf (l : List (Nat × FlagSet)) : Lanes := l.map fun r => BitVec.ofNat 32 r.1
def flagsOf (l : List (Nat × FlagSet)) : FlagSet := orFlags (l.map (·.2))

/-- A V result of two sources, no flag. -/
def State.v2 (s : State) (d : VDst) (a b : VSrc) (f : W32 → W32 → W32) : Host.Outcome State Fault Refusal :=
  .next (s.landY (vdst d) (lanes2 f (s.readV a) (s.readV b)) 2 0)

/-- An FP32 result of two sources with flags, landing in n ticks. -/
def State.vf2 (s : State) (d : VDst) (a b : VSrc) (n : Nat) (f : Nat → Nat → Nat × FlagSet) :
    Host.Outcome State Fault Refusal :=
  let x := s.readV a
  let y := s.readV b
  let r := tab 128 fun i => f (lane x i).toNat (lane y i).toNat
  .next (s.landY (vdst d) (lanesOf r) n (flagsOf r))

/-- An FP32 result of the old destination and two sources. -/
def State.vf3 (s : State) (d : BitVec 4) (a b : VSrc) (f : Nat → Nat → Nat → Nat × FlagSet) :
    Host.Outcome State Fault Refusal :=
  let o := s.rd.regV d.toNat
  let x := s.readV a
  let y := s.readV b
  let r := tab 128 fun i => f (lane o i).toNat (lane x i).toNat (lane y i).toNat
  .next (s.landY (.v d.toNat) (lanesOf r) 4 (flagsOf r))

/-- R101: a packed 16-bit result of two sources. -/
def State.vp2 (s : State) (d : VDst) (a b : VSrc) (n : Nat) (f : Nat → Nat → Nat × FlagSet) :
    Host.Outcome State Fault Refusal :=
  let x := s.readV a
  let y := s.readV b
  let r := tab 256 fun i => f (element 16 x i) (element 16 y i)
  .next (s.landY (vdst d) (packLanes 16 256 fun i => (nth (0, 0) r i).1) n (flagsOf r))

/-- R101: a packed 16-bit result of the old destination and two sources. -/
def State.vp3 (s : State) (d : BitVec 4) (a b : VSrc) (f : Nat → Nat → Nat → Nat × FlagSet) :
    Host.Outcome State Fault Refusal :=
  let o := s.rd.regV d.toNat
  let x := s.readV a
  let y := s.readV b
  let r := tab 256 fun i => f (element 16 o i) (element 16 x i) (element 16 y i)
  .next (s.landY (.v d.toNat) (packLanes 16 256 fun i => (nth (0, 0) r i).1) 4 (flagsOf r))

/-! ## Lane operations -/

/-- R99, R101: two-operand arithmetic of a format in a mode. -/
def addE (f : CvtFmt) (m : RMode) (x y : Nat) : Nat × FlagSet := fadd f m (value f x) (value f y)
def subE (f : CvtFmt) (m : RMode) (x y : Nat) : Nat × FlagSet := fadd f m (value f x) (value f y).negate
def mulE (f : CvtFmt) (m : RMode) (x y : Nat) : Nat × FlagSet := fmul f m (value f x) (value f y)
def fmaE (f : CvtFmt) (m : RMode) (o x y : Nat) : Nat × FlagSet := ffma f m (value f x) (value f y) (value f o)
def fmsE (f : CvtFmt) (m : RMode) (o x y : Nat) : Nat × FlagSet := ffma f m (value f x).negate (value f y) (value f o)

/-- R103: a mask lane. -/
def mask (b : Bool) : W32 := if b then BitVec.allOnes 32 else 0

/-- R103: an FP compare; the ordered compares set NV for any NaN. -/
def fcmp (quiet : Bool) (rel : FV → FV → Bool) (x y : Nat) : Nat × FlagSet :=
  let a := value .fp32 x
  let b := value .fp32 y
  let nan := a.isNaN || b.isNaN
  ((mask (!nan && rel a b)).toNat, nvIf (if quiet then a.isSig || b.isSig else nan))

/-- R102: lane shifts by an unsigned count. -/
def shlL (a n : W32) : W32 := if n.toNat < 32 then a <<< n.toNat else 0
def shrL (a n : W32) : W32 := if n.toNat < 32 then a >>> n.toNat else 0
def sarL (a n : W32) : W32 := a.sshiftRight (min n.toNat 32)

/-- R102: signed maximum and minimum. -/
def maxL (a b : W32) : W32 := if a.toInt ≤ b.toInt then b else a
def minL (a b : W32) : W32 := if a.toInt ≤ b.toInt then a else b

/-- R108: Combine of two lanes with the flags so far. -/
def combine (f : Nat → Nat → Nat × FlagSet) (x y : Nat × FlagSet) : Nat × FlagSet :=
  let r := f x.1 y.1
  (r.1, x.2 ||| y.2 ||| r.2)

/-- R108: one level of the tree. -/
def pairUp (f : Nat × FlagSet → Nat × FlagSet → Nat × FlagSet) : List (Nat × FlagSet) → List (Nat × FlagSet)
  | x :: y :: t => f x y :: pairUp f t
  | l => l

/-- R108: seven levels. -/
def tree (f : Nat × FlagSet → Nat × FlagSet → Nat × FlagSet) : Nat → List (Nat × FlagSet) → List (Nat × FlagSet)
  | 0, l => l
  | k + 1, l => tree f k (pairUp f l)

/-- R109: one step: every lane with the lane d below it. -/
def scanStep (f : Nat × FlagSet → Nat × FlagSet → Nat × FlagSet) (d : Nat) (y : List (Nat × FlagSet)) :
    List (Nat × FlagSet) := y.take d ++ y.zipWith f (y.drop d)

/-- The operand of a reduction: lanes with no flag yet. -/
def start (v : Lanes) : List (Nat × FlagSet) := tab 128 fun i => ((lane v i).toNat, fNone)

/-- R108: a reduction, its result in every lane. -/
def State.reduce (s : State) (d : VDst) (a : VSrc) (f : Nat → Nat → Nat × FlagSet) : Host.Outcome State Fault Refusal :=
  let r := nth (0, 0) (tree (combine f) 7 (start (s.readV a))) 0
  .next (s.landY (vdst d) (splat (BitVec.ofNat 32 r.1)) 6 r.2)

/-- The I32 operation of two lanes as a Combine without flags. -/
def plain (f : W32 → W32 → W32) (x y : Nat) : Nat × FlagSet := ((f (BitVec.ofNat 32 x) (BitVec.ofNat 32 y)).toNat, fNone)

/-- R106: 128 elements converted; equal formats return the source. -/
def vcvtL (m : RMode) (f g : CvtFmt) (u : Bool) (v : Lanes) : Lanes × FlagSet :=
  if f == g then (v, fNone)
  else
    let r := tab 128 fun i => convert m f g u (element (widthOf f) v i)
    (packLanes (widthOf g) 128 fun i => (nth (0, 0) r i).1, flagsOf r)

/-- R110: the active bank of a pattern entry; the identity until a vpld. -/
def Core.pattern (c : Core) (n : Nat) : List Nat :=
  match c.shuffle.get ⟨none, none, false⟩ n with
  | ⟨b0, b1, act⟩ => (if act then b1 else b0).getD (List.range 128)

/-- R113: one lane of a shuffle by a selector (R111). -/
def shufLane (a b : Lanes) (sel : Nat) : W32 :=
  if sel / 256 % 2 == 1 then 0 else if sel % 256 < 128 then lane a (sel % 256) else lane b (sel % 256 - 128)

/-- R113. -/
def State.shuffle (s : State) (d : VDst) (n : Nat) (a b : VShort) : Host.Outcome State Fault Refusal :=
  let x := s.readVS a
  let y := s.readVS b
  let p := s.mycore.pattern n
  .next (s.landY (vdst d) (tab 128 fun i => shufLane x y (nth 0 p i)) 2 0)

/-- R107. -/
def State.transc (s : State) (d : VDst) (a : VSrc) (op : TransOp) : Host.Outcome State Fault Refusal :=
  let x := s.readV a
  let r := tab 128 fun i => trans op s.mode (lane x i).toNat
  .next (s.landY (vdst d) (lanesOf r) 8 (flagsOf r))

/-! ## The instructions -/

/-- R43. -/
def execNopV (s : State) : Host.Outcome State Fault Refusal := .next s

/-- R99. -/
def execVaddF32 (d : VDst) (a b : VSrc) (s : State) : Host.Outcome State Fault Refusal := s.vf2 d a b 4 (addE .fp32 s.mode)

/-- R99. -/
def execVsubF32 (d : VDst) (a b : VSrc) (s : State) : Host.Outcome State Fault Refusal := s.vf2 d a b 4 (subE .fp32 s.mode)

/-- R99. -/
def execVmulF32 (d : VDst) (a b : VSrc) (s : State) : Host.Outcome State Fault Refusal := s.vf2 d a b 4 (mulE .fp32 s.mode)

/-- R99. -/
def execVfmaF32 (d : BitVec 4) (a b : VSrc) (s : State) : Host.Outcome State Fault Refusal := s.vf3 d a b (fmaE .fp32 s.mode)

/-- R99. -/
def execVfmsF32 (d : BitVec 4) (a b : VSrc) (s : State) : Host.Outcome State Fault Refusal := s.vf3 d a b (fmsE .fp32 s.mode)

/-- R100. -/
def execVmaxF32 (d : VDst) (a b : VSrc) (s : State) : Host.Outcome State Fault Refusal := s.vf2 d a b 2 (fmaxmin .fp32 true)

/-- R100. -/
def execVminF32 (d : VDst) (a b : VSrc) (s : State) : Host.Outcome State Fault Refusal := s.vf2 d a b 2 (fmaxmin .fp32 false)

/-- R100. -/
def execVabsF32 (d : VDst) (a : VSrc) (s : State) : Host.Outcome State Fault Refusal := 
  .next (s.landY (vdst d) (lanes2 (fun x _ => x &&& 0x7FFFFFFF) (s.readV a) []) 2 0)

/-- R100. -/
def execVnegF32 (d : VDst) (a : VSrc) (s : State) : Host.Outcome State Fault Refusal := 
  .next (s.landY (vdst d) (lanes2 (fun x _ => x ^^^ 0x80000000) (s.readV a) []) 2 0)

/-- R101. -/
def execVaddBf16 (d : VDst) (a b : VSrc) (s : State) : Host.Outcome State Fault Refusal := s.vp2 d a b 4 (addE .bf16 s.mode)

/-- R101. -/
def execVmulBf16 (d : VDst) (a b : VSrc) (s : State) : Host.Outcome State Fault Refusal := s.vp2 d a b 4 (mulE .bf16 s.mode)

/-- R101. -/
def execVfmaBf16 (d : BitVec 4) (a b : VSrc) (s : State) : Host.Outcome State Fault Refusal := s.vp3 d a b (fmaE .bf16 s.mode)

/-- R101. -/
def execVmaxBf16 (d : VDst) (a b : VSrc) (s : State) : Host.Outcome State Fault Refusal := s.vp2 d a b 2 (fmaxmin .bf16 true)

/-- R101. -/
def execVminBf16 (d : VDst) (a b : VSrc) (s : State) : Host.Outcome State Fault Refusal := s.vp2 d a b 2 (fmaxmin .bf16 false)

/-- R101. -/
def execVaddF16 (d : VDst) (a b : VSrc) (s : State) : Host.Outcome State Fault Refusal := s.vp2 d a b 4 (addE .fp16 s.mode)

/-- R101. -/
def execVmulF16 (d : VDst) (a b : VSrc) (s : State) : Host.Outcome State Fault Refusal := s.vp2 d a b 4 (mulE .fp16 s.mode)

/-- R101. -/
def execVfmaF16 (d : BitVec 4) (a b : VSrc) (s : State) : Host.Outcome State Fault Refusal := s.vp3 d a b (fmaE .fp16 s.mode)

/-- R101. -/
def execVmaxF16 (d : VDst) (a b : VSrc) (s : State) : Host.Outcome State Fault Refusal := s.vp2 d a b 2 (fmaxmin .fp16 true)

/-- R101. -/
def execVminF16 (d : VDst) (a b : VSrc) (s : State) : Host.Outcome State Fault Refusal := s.vp2 d a b 2 (fmaxmin .fp16 false)

/-- R102. -/
def execVaddI32 (d : VDst) (a b : VSrc) (s : State) : Host.Outcome State Fault Refusal := s.v2 d a b (· + ·)

/-- R102. -/
def execVsubI32 (d : VDst) (a b : VSrc) (s : State) : Host.Outcome State Fault Refusal := s.v2 d a b (· - ·)

/-- R102. -/
def execVmulI32 (d : VDst) (a b : VSrc) (s : State) : Host.Outcome State Fault Refusal := s.v2 d a b (· * ·)

/-- R102. -/
def execVmaxI32 (d : VDst) (a b : VSrc) (s : State) : Host.Outcome State Fault Refusal := s.v2 d a b maxL

/-- R102. -/
def execVminI32 (d : VDst) (a b : VSrc) (s : State) : Host.Outcome State Fault Refusal := s.v2 d a b minL

/-- R102. -/
def execVandI32 (d : VDst) (a b : VSrc) (s : State) : Host.Outcome State Fault Refusal := s.v2 d a b (· &&& ·)

/-- R102. -/
def execVorI32 (d : VDst) (a b : VSrc) (s : State) : Host.Outcome State Fault Refusal := s.v2 d a b (· ||| ·)

/-- R102. -/
def execVxorI32 (d : VDst) (a b : VSrc) (s : State) : Host.Outcome State Fault Refusal := s.v2 d a b (· ^^^ ·)

/-- R102. -/
def execVandnI32 (d : VDst) (a b : VSrc) (s : State) : Host.Outcome State Fault Refusal := s.v2 d a b fun x y => x &&& ~~~y

/-- R102. -/
def execVshlI32 (d : VDst) (a b : VSrc) (s : State) : Host.Outcome State Fault Refusal := s.v2 d a b shlL

/-- R102. -/
def execVshrI32 (d : VDst) (a b : VSrc) (s : State) : Host.Outcome State Fault Refusal := s.v2 d a b shrL

/-- R102. -/
def execVsarI32 (d : VDst) (a b : VSrc) (s : State) : Host.Outcome State Fault Refusal := s.v2 d a b sarL

/-- R103. -/
def execVcmpEqF32 (d : VDst) (a b : VSrc) (s : State) : Host.Outcome State Fault Refusal := s.vf2 d a b 2 (fcmp true eqFV)

/-- R103. -/
def execVcmpLtF32 (d : VDst) (a b : VSrc) (s : State) : Host.Outcome State Fault Refusal := s.vf2 d a b 2 (fcmp false ltFV)

/-- R103. -/
def execVcmpLeF32 (d : VDst) (a b : VSrc) (s : State) : Host.Outcome State Fault Refusal := s.vf2 d a b 2 (fcmp false fun x y => ltFV x y || eqFV x y)

/-- R103. -/
def execVcmpEqI32 (d : VDst) (a b : VSrc) (s : State) : Host.Outcome State Fault Refusal := s.v2 d a b fun x y => mask (x == y)

/-- R103. -/
def execVcmpLtI32 (d : VDst) (a b : VSrc) (s : State) : Host.Outcome State Fault Refusal := s.v2 d a b fun x y => mask (decide (x.toInt < y.toInt))

/-- R103. -/
def execVcmpLeI32 (d : VDst) (a b : VSrc) (s : State) : Host.Outcome State Fault Refusal := s.v2 d a b fun x y => mask (decide (x.toInt ≤ y.toInt))

/-- R104: the old destination is the mask. -/
def execVsel (d : BitVec 4) (a b : VSrc) (s : State) : Host.Outcome State Fault Refusal :=
  let m := s.rd.regV d.toNat
  let x := s.readV a
  let y := s.readV b
  .next (s.landY (.v d.toNat) (tab 128 fun i => (lane x i &&& lane m i) ||| (lane y i &&& ~~~(lane m i))) 2 0)

/-- R105. -/
def execVbcast (d : VDst) (a : SSrc) (s : State) : Host.Outcome State Fault Refusal :=
  slot s (do
    let x ← s.readS a
    pure (s.landY (vdst d) (splat (x.setWidth 32)) 2 0))

/-- R105. -/
def execVmovs (d : BitVec 4) (a : SSrc) (l : BitVec 7) (s : State) : Host.Outcome State Fault Refusal :=
  slot s (do
    let x ← s.readS a
    let o := s.rd.regV d.toNat
    pure (s.landY (.v d.toNat) (tab 128 fun i => if i == l.toNat then x.setWidth 32 else lane o i) 2 0))

/-- R105. -/
def execVidx (d : VDst) (a : SSrc) (s : State) : Host.Outcome State Fault Refusal :=
  slot s (do
    let x ← s.readS a
    pure (s.landY (vdst d) (tab 128 fun i => x.setWidth 32 + BitVec.ofNat 32 i) 2 0))

/-- R106. -/
def execVcvt (d : VDst) (a : VSrc) (f g : CvtFmt) (u : Bool) (s : State) : Host.Outcome State Fault Refusal :=
  let r := vcvtL s.mode f g u (s.readV a)
  .next (s.landY (vdst d) r.1 4 r.2)

/-- R107. -/
def execVrcpF32 (d : VDst) (a : VSrc) (s : State) : Host.Outcome State Fault Refusal := s.transc d a .rcp

/-- R107. -/
def execVrsqF32 (d : VDst) (a : VSrc) (s : State) : Host.Outcome State Fault Refusal := s.transc d a .rsq

/-- R107. -/
def execVexp2F32 (d : VDst) (a : VSrc) (s : State) : Host.Outcome State Fault Refusal := s.transc d a .exp2

/-- R107. -/
def execVlog2F32 (d : VDst) (a : VSrc) (s : State) : Host.Outcome State Fault Refusal := s.transc d a .log2

/-- R107. -/
def execVtanhF32 (d : VDst) (a : VSrc) (s : State) : Host.Outcome State Fault Refusal := s.transc d a .tanh

/-- R107. -/
def execVsigF32 (d : VDst) (a : VSrc) (s : State) : Host.Outcome State Fault Refusal := s.transc d a .sig

/-- R108. -/
def execVredAdd (d : VDst) (a : VSrc) (y : Bool) (s : State) : Host.Outcome State Fault Refusal :=
  s.reduce d a (if y then plain (· + ·) else addE .fp32 s.mode)

/-- R108. -/
def execVredMax (d : VDst) (a : VSrc) (y : Bool) (s : State) : Host.Outcome State Fault Refusal :=
  s.reduce d a (if y then plain maxL else fmaxmin .fp32 true)

/-- R108. -/
def execVredMin (d : VDst) (a : VSrc) (y : Bool) (s : State) : Host.Outcome State Fault Refusal :=
  s.reduce d a (if y then plain minL else fmaxmin .fp32 false)

/-- R109. -/
def execVscanAdd (d : VDst) (a : VSrc) (y : Bool) (s : State) : Host.Outcome State Fault Refusal :=
  let f := combine (if y then plain (· + ·) else addE .fp32 s.mode)
  let r := [1, 2, 4, 8, 16, 32, 64].foldl (fun x d => scanStep f d x) (start (s.readV a))
  .next (s.landY (vdst d) (lanesOf r) 6 (flagsOf r))

/-- R113: entries 0-31. -/
def execVshufLo (d : VDst) (n : BitVec 5) (a b : VShort) (s : State) : Host.Outcome State Fault Refusal :=
  s.shuffle d n.toNat a b

/-- R113: entries 32-63. -/
def execVshufHi (d : VDst) (n : BitVec 5) (a b : VShort) (s : State) : Host.Outcome State Fault Refusal :=
  s.shuffle d (n.toNat + 32) a b

end Sys2Proof.Machine
end

