-- ==== Sys2Proof/Machine/Command.lean ====
section
/-! DEFINITION. Machine/Command.lean: the C-class engine commands: posts, gathers, barriers, plane counters and nxt
(R166-R186). -/

namespace Sys2Proof.Machine

open Sys2Proof

/-- R43. -/
def execNopC (s : State) : Host.Outcome State Fault Refusal := .next s

/-! ## cpost and coll (R171, R181, R274) -/

/-- R171: the image as it goes into slot n: its SEQ, STATE 0; the rest of STATUS as the program has it. -/
def slotImage (p : List Byte) (seq : Nat) : List Byte :=
  p.take 2 ++ toBytes 2 seq ++ toBytes 4 (numAt p 4 4 / 16 * 16) ++ p.drop 8

/-- R170, R171, R181, R274: the claim of a slot at the queue header, the expectation, and for a coll its counters: the slot's
number, its device address and the image for it; or a status; or a memory cause and its address. -/
def State.postClaim (s : State) (n j : Nat) (o : PostOp) :
    State × Except (Nat × Nat) (Nat × Option (Nat × List Byte)) :=
  let v := s.vdevOf n
  let user := o.level == 0
  let own := ctxNum n j
  if o.bad then (s, .ok (2 ^ 63 + 2, none))
  else if !(s.vdev v).hasQueue o.queue then (s, .error (3, o.queue))
  else
    let r := s.devRead v o.queue 64 user
    match r.2, s.devCheck [] v o.queue 64 .w user with
    | .error e, _ => (r.1, .error e)
    | .ok _, .error e => (r.1, .error e)
    | .ok bs, .ok _ =>
      match qHdr bs false with
      | none => (r.1.errorLog (numAt bs 25 1 / 4 % 4) 3 o.queue, .ok (2 ^ 63 + 3, none))
      | some h =>
        if h.full then (r.1, .ok (2 ^ 63 + 1, none))
        else
          let s := (r.1.devWrite v o.queue (toBytes 8 (h.wi + 1)) user own).1
          let party := collParty v n o.queue (h.slot h.wi) o.wid own o.image
          let x := if o.coll then ((s.flushTo party).writeCounters party, party.expect) else s.pkExp (some n) v user o.image
          let s := if x.2 == 0 then x.1 else x.1.engineBar v (x.1.pkTb (some n) v o.image) x.2 0 false
          let s := if o.coll then { s with parties := party :: s.parties } else s
          (s, .ok (h.wi % 2 ^ 32, some (h.slot h.wi, slotImage o.image (h.seq h.wi))))

/-- R171, R275: the image written to its slot, whose home keeps that cpost or coll wrote it. -/
def State.postWrite (s : State) (n j : Nat) (o : PostOp) (slot : Nat) (image : List Byte) :
    State × Except (Nat × Nat) Unit :=
  let v := s.vdevOf n
  let own := ctxNum n j
  let w := s.devWrite v slot image (o.level == 0) own
  match w.2, w.1.lookup [] v slot with
  | .ok _, some t =>
    ({ w.1 with slotBits := ⟨t.pa, true, o.coll, own, o.level, o.wid⟩ :: w.1.slotBits }, .ok ())
  | r, _ => (w.1, r)

/-- R268: the queue header of a post, or its slot, lies in a page that migrates. -/
def State.postWaits (s : State) (v hdr : Nat) : Bool :=
  !s.migrations.isEmpty && s.moving [] v hdr 64

/-- R229, R230: the barrier of a packet image of core n lies in a unit in transition. -/
def State.postTbMoving (s : State) (n : Nat) (p : List Byte) : Bool :=
  (s.pkTb (some n) (s.vdevOf n) p).any fun l => s.localMoving l (pkTbBytes p)

/-- R229: what a coll of core n writes as it issues, its counters and its barrier, lies in a unit in transition. -/
def State.collMoving (s : State) (n : Nat) (p : List Byte) : Bool :=
  let y := collParty 0 n 0 0 0 0 p
  (s.core n).scrChanging y.cnt (8 * y.npart * y.tcount) || s.postTbMoving n p

/-- R171, R181: the image is read and checked at issue, the context's stores are released, and the post goes to the queue
header; a coll's claim, counters and expectation are made as it issues (R170), and wait for a conversion (R229). -/
def State.postOp (s : State) (coll : Bool) (hdr img : Word) (d : SDst) : Except Void State := do
  s.ordering
  s.scrOk img.toNat 64 64
  let n := s.cur
  let j := s.j
  need (!s.postWaits (s.vdevOf n) hdr.toNat) (.stall .mem)
  let p := s.scrOld img.toNat 64
  let bad := if coll then !s.collOk n p else !headOk p false
  need (!coll || bad || !s.collMoving n p) (.stall .mem)
  let o : PostOp := ⟨coll, p, hdr.toNat, s.me.level, bad, none, s.me.wid⟩
  let s := s.release n j
  if !coll then pure (s.produce d.toNat (.post o) none)
  else
    let r := s.postClaim n j o
    pure (match r.2 with
      | .error e => r.1.produce d.toNat (.post o) (some (memFault e.1 e.2 none))
      | .ok (w, none) => r.1.produce d.toNat (.post o) (some (.value (BitVec.ofNat 64 w)))
      | .ok (w, some (slot, image)) =>
        r.1.produce d.toNat (.post { o with image := image, claimed := some slot }) (some (.value (BitVec.ofNat 64 w))))

/-- R171. -/
def execCpost (a b : SSrc) (d : BitVec 6) (s : State) : Host.Outcome State Fault Refusal :=
  slot s (do
    let h ← s.readS a
    let i ← s.readS b
    s.postOp false h i d)

/-- R181. -/
def execColl (a b : SSrc) (d : BitVec 6) (s : State) : Host.Outcome State Fault Refusal :=
  slot s (do
    let i ← s.readS a
    let h ← s.readS b
    s.postOp true h i d)

/-- R171, R181: what is left of a post at its completion: its status, or a memory cause and its address. -/
def State.postEnd (s : State) (n j : Nat) (o : PostOp) (d : Option Done) : State × Done :=
  let fail := fun (s : State) (e : Nat × Nat) => (s.logViol n j (viol o.wid e.1 e.2), memFault e.1 e.2 none)
  match d, o.claimed with
  | some d, some slot =>
    let w := s.postWrite n j o slot o.image
    match w.2 with
    | .error e => fail w.1 e
    | .ok _ => (w.1, d)
  | some d, none =>
    match d with
    | .fail r => (s.logViol n j (viol o.wid r.cause r.addr), d)
    | .value _ => (s, d)
  | none, _ =>
    let r := s.postClaim n j o
    match r.2 with
    | .error e => fail r.1 e
    | .ok (w, none) => (r.1, .value (BitVec.ofNat 64 w))
    | .ok (w, some (slot, image)) =>
      let q := r.1.postWrite n j o slot image
      match q.2 with
      | .error e => fail q.1 e
      | .ok _ => (q.1, .value (BitVec.ofNat 64 w))

/-- R268: the slot that a post, still to be claimed, would claim now: its device address. -/
def State.postSlot (s : State) (v : Nat) (o : PostOp) : Option Nat :=
  if o.bad || !(s.vdev v).hasQueue o.queue then none
  else match (s.devRead v o.queue 64 (o.level == 0)).2 with
  | .error _ => none
  | .ok bs => ((qHdr bs false).filter fun h => !h.full).map fun h => h.slot h.wi

/-- A post waits: its header or slot lies in a page that migrates (R268), or its barrier in a unit in transition (R230). -/
def State.postHeld (s : State) (core : Nat) (o : PostOp) (d : Option Done) : Bool :=
  let v := s.vdevOf core
  let slot := if d.isNone then s.postSlot v o else o.claimed
  (d.isNone && !o.bad && s.postTbMoving core o.image) || s.postWaits v o.queue
    || s.anyMoving v ((slot.map fun a => (a, 64)).toList)

/-- R171, R181: a post reaches its queue. -/
def execCpostCompletion (core ctx k : Nat) (s : State) : Host.Outcome State Fault Refusal :=
  match s.prodAt core ctx k with
  | some p =>
    match p.work with
    | .post o =>
      if s.postHeld core o p.done then .next s
      else
        let r := s.postEnd core ctx o p.done
        let k := ((r.1.ctx core ctx).prods.findIdx? fun q => q == p).getD k
        .next (r.1.finish core ctx k p r.2)
    | _ => .next s
  | none => .next s

/-! ## gather and scatter (R177) -/

/-- R177: the barrier of a row-area descriptor, with the bitmap after it. -/
def gBar (n w : Nat) : Local :=
  if fld w 48 48 == 0 then ⟨0, n, fld w 47 24⟩ else ⟨1, clusterOf n, fld w 47 24⟩

/-- R177-R179: the checks, the handle entry, the release, the expectation; then the engine serves the lanes. A handle entry
in a page that migrates holds the bundle back (R268). DESIGN CHOICE (log 106): a row area of no bytes (RS = 0, or no active
lane) is checked as one of one byte. -/
def State.gatherOp (s : State) (scatter : Bool) (va : VSrc) (desc area : Word) : Except Void State := do
  s.ordering
  let d := desc.toNat
  let w := area.toNat
  need (gOk d) (s.engineFault d)
  need (fld w 63 53 == 0 && decide (fld w 52 50 ≤ 4)) (s.engineFault w)
  let level := s.me.level
  let n := s.cur
  let v := s.vdevOf n
  let idx := (s.readV va).map BitVec.toNat
  need (!s.anyMoving v [(s.handleVa v (fld d 11 0), 64)]) (.stall .mem)
  let r := s.gHandle v d (level == 0)
  let l := gBar n w
  need (l.space != 0 || l.off % 16 != 0 || !s.mycore.scrChanging l.off 32) (.stall .mem)
  need (s.localFits l 32 16) (if l.space == 0 then faultAt 0x0D 0 0 l.off else s.engineFault w)
  let act := activeLanes idx
  let rs := match r.2 with
    | .ok h => h.rs (gBase d) (gLen d)
    | .error _ => 0
  s.scrOk (fld w 23 0) (max 1 (act.length * rs)) 128
  let s := r.1.release n s.j
  let s := if act.length * rs == 0 then s
    else if l.space == 0 then s.barUpdate l 0 (act.length * rs) 0 false false
    else (s.drainBar l).barUpdate l 0 (act.length * rs) 0 false false
  let h := match r.2 with
    | .ok h => Except.ok h
    | .error e => .error e.1
  let g : GatherOp := ⟨scatter, n, s.j, level, s.me.wid, h, s.handleVa v (fld d 11 0), gBase d, gLen d, gDim d, idx, rs,
    fld w 23 0, l.space, l.loc, l.off, fld w 49 49 == 1, 0, act, []⟩
  pure { s with gathers := s.gathers ++ [g] }

/-- R178. -/
def execGather (v : VSrc) (a b : SSrc) (s : State) : Host.Outcome State Fault Refusal :=
  slot s (do
    let x ← s.readS a
    let y ← s.readS b
    s.gatherOp false v x y)

/-- R179. -/
def execScatter (v : VSrc) (a b : SSrc) (s : State) : Host.Outcome State Fault Refusal :=
  slot s (do
    let x ← s.readS a
    let y ← s.readS b
    s.gatherOp true v x y)

/-! ## Barriers (R166-R170) -/

/-- R168, R169: a barrier of the issuing core or of its cluster. -/
def State.ownBarrier (s : State) (w : Nat) : Except Void Local := do
  match localOf (some s.cur) w with
  | none => .error (s.engineFault w)
  | some l => need (l.loc == if l.space == 0 then s.cur else clusterOf s.cur) (s.engineFault w)
  s.localArg w 16 16

/-- R168: an update leaves for its barrier: at once for the issuing core's scratchpad, otherwise in order. -/
def State.barSend (s : State) (l : Local) (arrive expect_ : Nat) (init : Option Nat) : State :=
  if l.space == 0 && l.loc == s.cur then
    match init with
    | some w => s.barInit l w
    | none => s.barUpdate l arrive expect_ 0 false false
  else { s with barMsgs := s.barMsgs ++ [⟨s.vdevOf s.cur, l.space, l.loc, l.off, arrive, expect_, 0, false, init⟩] }

/-- R168. -/
def execTbinit (a b : SSrc) (s : State) : Host.Outcome State Fault Refusal :=
  slot s (do
    let x ← s.readS a
    let y ← s.readS b
    let l ← s.ownBarrier x.toNat
    need (bits y 63 17 == 0) (s.engineFault y.toNat)
    pure (s.barSend l 0 0 (some (y.toNat % 2 ^ 17))))

/-- R168: the barrier of a tbarr or tbexp; none where it lies outside the virtual device. -/
def State.sharedBarrier (s : State) (w : Nat) : Except Void (Option Local) :=
  match localOf (some s.cur) w with
  | none => .error (s.engineFault w)
  | some l =>
    if s.localVdev l != s.vdevOf s.cur then do
      need (s.localFits l 16 16) (if l.space == 0 then faultAt 0x0D 0 0 l.off else s.engineFault w)
      pure none
    else do
      let l ← s.localArg w 16 16
      pure (some l)

/-- R168: an update aimed outside the virtual device is dropped, logged and held as a store fault. -/
def State.barOutside (s : State) (w : Nat) : State := s.holdFault s.cur s.j 7 w w s.issue.addr

/-- R363: the release that an update of barrier l carries. -/
def State.barRelease (s : State) (l : Local) : State :=
  if l.space == 0 && l.loc == s.cur then s.register s.cur s.j else s.release s.cur s.j

/-- R168. -/
def execTbarr (a : SSrc) (s : State) : Host.Outcome State Fault Refusal :=
  slot s (do
    s.ordering
    let x ← s.readS a
    match ← s.sharedBarrier x.toNat with
    | none => pure (s.barOutside x.toNat)
    | some l => pure ((s.barRelease l).barSend l 1 0 none))

/-- R168: bits 63:40 of b are ignored. -/
def execTbexp (a b : SSrc) (s : State) : Host.Outcome State Fault Refusal :=
  slot s (do
    let x ← s.readS a
    let y ← s.readS b
    match ← s.sharedBarrier x.toNat with
    | none => pure (s.barOutside x.toNat)
    | some l => pure ((s.barRelease l).barSend l 0 (y.toNat % 2 ^ 40) none))

/-- R169; the register is empty from issue on (R205). -/
def execTbwait (a b : SSrc) (d : BitVec 6) (s : State) : Host.Outcome State Fault Refusal :=
  slot s (do
    let x ← s.readS a
    let y ← s.readS b
    let l ← s.ownBarrier x.toNat
    let seen := y.toNat % 16
    let s := if l.space == 0 then s else s.drainBar l
    let k := barrierOf (s.localRead l 16)
    pure (if k.phase == seen && k.park then
        (s.updMe fun x => x.emptyS d.toNat).request (.park d.toNat l.space l.loc l.off seen)
      else s.waitBar d.toNat l seen))

/-- R279: the earliest park of a cluster on its way reaches its barrier: the record waits, or is queued again
at once where the phase has advanced. -/
def execParkApply (cluster : Nat) (s : State) : Host.Outcome State Fault Refusal :=
  let c := s.cluster cluster
  match c.parked.findIdx? (fun k => !k.applied) with
  | none => .next s
  | some i =>
    match c.parked[i]? with
    | none => .next s
    | some k =>
      let l : Local := ⟨k.space, k.loc, k.off⟩
      let s := s.drainBar l
      let b := barrierOf (s.localRead l 16)
      if b.phase == k.seen then
        .next (s.updCluster cluster fun c => { c with
          parked := c.parked.map fun x => if x == k then { x with applied := true } else x })
      else .next ((s.setParkedOf cluster ((s.cluster cluster).parked.filter fun x => x != k)).unpark cluster k b.result)

/-- R167: update k arrives at its barrier's home, after the updates that were sent to that home before it. -/
def execBarrierUpdateArrival (k : Nat) (s : State) : Host.Outcome State Fault Refusal :=
  match s.barMsgs[k]? with
  | none => .next s
  | some m =>
    let here := fun (x : BarMsg) => x.space == m.space && x.loc == m.loc && x.off == m.off
    match s.barMsgs.findIdx? here with
    | none => .next s
    | some i =>
      match s.barMsgs[i]? with
      | none => .next s
      | some x => .next ({ s with barMsgs := dropAt s.barMsgs i }.barArrive x)

/-! ## Plane counters (R183, R184) -/

/-- R183, R364: the counter is read, or waited on. R155's list of reads does not name it: it sees the writes of its own
bundle (log 89). -/
def State.planeOp (s : State) (a : SSrc) (p : Nat) (d : SDst) : Except Void State := do
  let x ← s.readS a
  s.scrOk x.toNat 8 8
  let c := s.mycore.plane x.toNat
  pure (if p == 0 || c.reached p then
      let t := s.produceNow d.toNat (.plane x.toNat p) (ofBytes (s.mycore.scr x.toNat 8))
      if s.wides.contains ⟨s.cur, x.toNat, true⟩ then t.l1Acquire s.cur else t
    else s.produce d.toNat (.plane x.toNat p) none)

/-- R183. -/
def execPlwait (a : SSrc) (p : BitVec 4) (d : BitVec 6) (s : State) : Host.Outcome State Fault Refusal :=
  slot s (s.planeOp a p.toNat d)

/-- R183. -/
def execPlread (a : SSrc) (d : BitVec 6) (s : State) : Host.Outcome State Fault Refusal := slot s (s.planeOp a 0 d)

/-- R184; it waits while a barrier that it reaches lies in a unit in transition (R229). -/
def execPlcancel (a : SSrc) (s : State) : Host.Outcome State Fault Refusal :=
  slot s (do
    let x ← s.readS a
    s.scrOk x.toNat 8 8
    need (!s.freezeHeld s.cur x.toNat) (.stall .mem)
    pure (s.freeze s.cur x.toNat false 0))

/-! ## nxt (R185, R319) -/

/-- The batch of a dispenser that a cluster holds. -/
def Cluster.batch (c : Cluster) (launch d : Nat) : Batch :=
  (c.batches.find? fun b => b.launch == launch && b.disp == d).getD ⟨launch, d, [], false⟩

def Cluster.setBatch (c : Cluster) (b : Batch) : Cluster :=
  { c with batches := b :: c.batches.filter fun x => !(x.launch == b.launch && x.disp == b.disp) }

/-- The lowest of a list of identifiers. -/
def lowest : List Nat → Option Nat
  | [] => none
  | a :: t => some (t.foldl min a)

/-- R185, R319. -/
def execNxt (a : SSrc) (s : State) : Host.Outcome State Fault Refusal :=
  slot s (do
    let x ← s.readS a
    let d := x.toNat
    let k := (s.me.held.map (·.launch)).getD 0
    let n := ((s.launch k).map fun l => l.disps.length).getD 0
    need (decide (d < 16 ∧ d < n)) (faultAt 0x10 0 0 d)
    let cl := clusterOf s.cur
    let b := (s.cluster cl).batch k d
    let r := match lowest b.ids with
      | some i => (i, { b with ids := b.ids.erase i })
      | none => (if b.done then 2 ^ 64 - 1 else 2 ^ 64 - 2, b)
    let nxp := s.me.nxp
    let s := (s.updCluster cl fun c => c.setBatch r.2).landS .nxt (.s (56 + nxp)) (BitVec.ofNat 64 r.1) 12
    pure (s.updMe fun x => { x with nxp := (nxp + 1) % 4 }))

end Sys2Proof.Machine
end

