-- ==== Sys2Proof/Machine/Units.lean ====
section
/-! DEFINITION. Machine/Units.lean: the port-driven units, codebook and decoder-table loads, the shuffle memory and the
beat-program store (R112, R127, R136, R140-R148, R187-R202, R301). -/

namespace Sys2Proof.Machine

open Sys2Proof

/-! ## Ports (R143-R146) -/

/-- The unit of a trigger port: 0 cbu, 1 rcu, 2 htb; none for an operand port. -/
def trigUnit (port : Nat) : Option Nat :=
  if port == 0x20 || port == 0x21 || port == 0x22 || port == 0x23 then some 0
  else if port == 0x50 then some 1 else if port == 0x90 then some 2 else none

/-- The result ports of a trigger's operation. -/
def trigResults (port : Nat) : List Nat :=
  match port with
  | 0x20 => [0x30, 0x31]
  | 0x50 => [0x60, 0x61, 0x62]
  | 0x90 => [0xA0, 0xA1]
  | _ => [0x32]

/-- A unit of the core runs an operation. -/
def Core.unitRuns (c : Core) (u : Nat) : Option UnitOp := c.unitOps.get none u

/-- Operand values of the result ports cleared. -/
def Units.setRes (u : Units) (ports : List Nat) (r : PortRes) : Units :=
  { u with res := ports.foldl (fun t p => t.set p r) u.res }

/-- R145. -/
def execPmovV (o : BitVec 8) (v : VSrc) (s : State) : Host.Outcome State Fault Refusal :=
  let w := s.readV v
  .next (s.updMe fun x => { x with
    units := if o.toNat == 0x40 then { x.units with val0 := w } else { x.units with val1 := w } })

/-- R147, R389: the failure a pget of a failed port delivers, with the port's unit. DESIGN CHOICE (log 105): the units are
numbered in the order of R143: 0 cbu, 1 rcu, 2 htb. -/
def portFault (port code : Nat) : Done := .fail ⟨0x21, port / 0x40, port + 256 * code, none, false⟩

/-- What a result port delivers; none while its operation runs. -/
def PortRes.deliver (port : Nat) : PortRes → Option Done
  | .never => some (.value 0)
  | .empty => none
  | .value w => some (.value w)
  | .failed c => some (portFault port c)

/-- R146. -/
def execPget (d : BitVec 6) (o : BitVec 8) (s : State) : Host.Outcome State Fault Refusal :=
  let s' := s.produce d.toNat (.pget o.toNat) none
  match (s.me.units.res.get .never o.toNat).deliver o.toNat with
  | none => .next s'
  | some r => .next (s'.finish s.cur s.j (s'.me.prods.length - 1)
      ⟨d.toNat, 0, s.me.shadowed d.toNat, s.me.depth, .pget o.toNat, none⟩ r)

/-! ## Running operations (R143, R307) -/

/-- The operation of context j that a unit runs, if it is the one triggered at the port. -/
def Core.opOf (c : Core) (j port : Nat) : Option UnitOp :=
  match (trigUnit port).bind c.unitRuns with
  | some o => if o.ctx == j && o.trig == port then some o else none
  | none => none

def UnitOp.val (o : UnitOp) (p : Nat) : Nat := (o.ports.get 0 p).toNat

/-- R187: bytes of one plane. -/
def planeBytes (n : Nat) : Nat := 128 * ((n + 1023) / 1024)

/-- Two ranges overlap. -/
def overlap (a n b m : Nat) : Bool := decide (a < b + m ∧ b < a + n) && n != 0 && m != 0

/-- R307: an htb.build and a cbu.remap whose ranges of planes meet; a remap takes its destination to be as wide as 8
planes (log 95). -/
def samePlanes (a b : UnitOp) : Bool :=
  let meet := fun (h r : UnitOp) =>
    let src := h.val 0x80
    let n := h.val 0x82 * planeBytes (h.val 0x81)
    h.trig == 0x90 && r.trig == 0x21 &&
      (overlap src n (r.val 0x03) (r.val 0x07 * planeBytes (r.val 0x06)) || overlap src n (r.val 0x05) (8 * planeBytes (r.val 0x06)))
  meet a b || meet b a

/-- R307: an operation triggered earlier, on the same planes, still runs in another unit. -/
def Core.unitWaits (c : Core) (o : UnitOp) : Bool := c.unitOps.any fun u =>
  match u.2 with
  | some p => samePlanes o p && decide (p.start < o.start)
  | none => false

/-! ## Operands (R147) -/

/-- An operand within its limits, or its port as the failing-operand code. -/
def UnitOp.lim (o : UnitOp) (p lo hi : Nat) : Except Nat Unit :=
  if lo ≤ o.val p ∧ o.val p ≤ hi then .ok () else .error p

/-- A check, or the failing-operand code. -/
def chk (b : Bool) (code : Nat) : Except Nat Unit := if b then .ok () else .error code

/-! ## Index planes (R187, R188) -/

/-- R201: S, the 1,024-element blocks of an operation. -/
def blocksOf (n : Nat) : Nat := (n + 1023) / 1024

/-- R188: the width a codebook of n entries needs. -/
def widthFor (n : Nat) : Nat := if n ≤ 2 then 1 else Nat.log2 (n - 1) + 1

/-- The n indices of w planes. -/
def readPlanes (bs : List Byte) (n w : Nat) : List Nat :=
  let v := bs.toArray
  tab n fun i => (List.range w).foldl (fun a m =>
    2 * a + (v.getD (m * planeBytes n + i / 8) 0).toNat / 2 ^ (i % 8) % 2) 0

/-- w planes of the indices, zero beyond the last. -/
def writePlanes (idx : List Nat) (w : Nat) : List Byte :=
  let v := idx.toArray
  (List.range w).flatMap fun m => tab (planeBytes idx.length) fun b =>
    BitVec.ofNat 8 (((List.range 8).map fun k => v.getD (8 * b + k) 0 / 2 ^ (w - 1 - m) % 2 * 2 ^ k).sum)

/-- The format of a codebook tag (R139). -/
def tagFmt : Nat → CvtFmt
  | 1 => .fp16 | 2 => .bf16 | _ => .fp32

/-! ## The re-cluster values (R196) -/

/-- A finite value as a multiple of 2^-149; none for a NaN or an infinity. -/
def fixedOf (f : CvtFmt) (enc : Nat) : Option Int :=
  match value f enc with
  | .fin neg m e =>
    let i : Int := (m * 2 ^ (e + 149).toNat : Nat)
    some (if neg then -i else i)
  | _ => none

/-- num/den × 2^-149 rounded to a format; +0 for zero. -/
def roundFixed (f : CvtFmt) (mode : RMode) (num : Int) (den : Nat) : Nat :=
  if num == 0 then 0 else (roundReal f mode false (decide (num < 0)) num.natAbs den (-149)).1

/-- A value of the run: its exact value and its encoding, its population, the pair indices that are its members. -/
structure Cluster1 where
  v : Int
  enc : Nat
  pop : Nat
  mem : List Nat
  deriving DecidableEq, Repr

/-- A pair value enters the list in ascending order; equal values merge. -/
def insertVal (x : Cluster1) : List Cluster1 → List Cluster1
  | [] => [x]
  | y :: t =>
    if x.v == y.v then { y with pop := y.pop + x.pop, mem := y.mem ++ x.mem } :: t
    else if x.v < y.v then x :: y :: t
    else y :: insertVal x t

/-- The lowest position with the smallest gap to its neighbour. -/
def smallGap : List Cluster1 → Option (Nat × Int)
  | a :: b :: t =>
    let g := b.v - a.v
    match smallGap (b :: t) with
    | none => some (0, g)
    | some (i, h) => if g ≤ h then some (0, g) else some (i + 1, h)
  | _ => none

/-- Positions i and i + 1 become their weighted mean, rounded once. -/
def mergeAt (f : CvtFmt) : Nat → List Cluster1 → List Cluster1
  | 0, a :: b :: t =>
    let enc := roundFixed f .rne (a.pop * a.v + b.pop * b.v) (a.pop + b.pop)
    ⟨(fixedOf f enc).getD 0, enc, a.pop + b.pop, a.mem ++ b.mem⟩ :: t
  | i + 1, a :: t => a :: mergeAt f i t
  | _, l => l

/-- R196 step 4. -/
def reduceTo (f : CvtFmt) (l : Nat) : Nat → List Cluster1 → List Cluster1
  | 0, es => es
  | k + 1, es =>
    if es.length ≤ l then es
    else match smallGap es with
      | some (i, _) => reduceTo f l k (mergeAt f i es)
      | none => es

/-- R197: err ≤ Value(CBTOL.TOL, FP32). -/
def withinTol (err tol : Nat) : Bool :=
  match value .fp32 tol with
  | .nan _ _ => false
  | .inf neg => !neg
  | t => !ltFV t (value .fp32 err)

/-- R196: the encoding of the value of pair index p, and the pair indices that are counted. -/
def UnitOp.pairEnc (o : UnitOp) (p : Nat) : Nat :=
  (lane (if p < 128 then o.val0 else o.val1) (p % 128)).toNat % 2 ^ (8 * tagBytes (o.val 0x42))
def Units.counted (u : Units) : List Nat := (List.range u.pairs).filter fun p => nth 0 u.pops p != 0

/-- R196 steps 1 to 3: the distinct values, −0 as +0, in ascending order. -/
def Units.values (u : Units) (o : UnitOp) : List Cluster1 :=
  u.counted.foldl (fun es p =>
    let v := (fixedOf (tagFmt (o.val 0x42)) (o.pairEnc p)).getD 0
    insertVal ⟨v, if v == 0 then 0 else o.pairEnc p, nth 0 u.pops p, [p]⟩ es) []

/-! ## The checks and cycles of an operation (R147, R193-R195, R200-R202) -/

/-- The codebook register that operand p names (log 39: as it stands when the operation starts). -/
def UnitOp.book (o : UnitOp) (p : Nat) : Codebook := o.cb.get Codebook.reset (o.val p)

/-- R193: the table of a remap, and the width of the planes that it writes. DESIGN CHOICE (log 82): a cbu.map that is neither
0 nor 1 counts as 1 here, so the range of cbu.dst is judged by the width of the rcu table, and code 0x05 may be reported
before 0x0B. -/
def UnitOp.table (o : UnitOp) : Option (List Nat) := if o.val 0x0B == 0 then o.units.dedup else o.units.rcu
def UnitOp.mapWidth (o : UnitOp) : Nat := widthFor (if o.val 0x0B == 0 then o.units.dedupN else o.units.rcuN)

/-- R194: the pairs of the two codebooks that a pair operation names. -/
def UnitOp.pairCount (o : UnitOp) : Nat := (o.book 0x01).n * (o.book 0x02).n

/-- The scratchpad ranges an operation reads and writes: the port that names each, its bytes and its alignment (R201).
DESIGN CHOICE (log 82): they are those of count, the widths and the format as moved, also where these pass their limits (2
bytes an element of an expand whose format does), and of width 1 where the map of a remap has no table; so the lower port
is reported first. -/
def UnitOp.ranges (o : UnitOp) : List (Nat × Nat × Nat) :=
  let p := planeBytes (o.val 0x06)
  match o.trig with
  | 0x21 => [(0x03, o.val 0x07 * p, 128), (0x05, o.mapWidth * p, 128)]
  | 0x22 => [(0x03, o.val 0x07 * p, 128), (0x04, o.val 0x08 * p, 128), (0x05, widthFor o.pairCount * p, 128), (0x0A, 2048, 512)]
  | 0x23 => [(0x03, o.val 0x07 * p, 128), (0x05, o.val 0x06 * tagBytes (o.val 0x09), 128)]
  | 0x90 => [(0x80, o.val 0x82 * planeBytes (o.val 0x81), 128)]
  | _ => []

/-- A range that the operation names lies in the scratchpad, aligned. -/
def UnitOp.range (o : UnitOp) (spsz p : Nat) : Except Nat Unit :=
  match o.ranges.find? fun r => r.1 == p with
  | some r => chk (o.val p % r.2.2 == 0 && decide (o.val p + r.2.1 ≤ spsz)) p
  | none => .ok ()

/-- R194, R200: no range of `ps` meets the one at cbu.dst. -/
def UnitOp.apart (o : UnitOp) (ps : List Nat) : Bool :=
  match o.ranges.find? fun r => r.1 == 0x05 with
  | some d => o.ranges.all fun r => !(ps.contains r.1 && overlap (o.val 0x05) d.2.1 (o.val r.1) r.2.1)
  | none => true

/-- R195: the checks of a re-cluster run. -/
def UnitOp.reclusterOk (o : UnitOp) : Except Nat Unit := do
  let ps := o.units.counted
  let bad := if 2 < o.val 0x42 then none else ps.find? fun p => (fixedOf (tagFmt (o.val 0x42)) (o.pairEnc p)).isNone
  chk (!bad.any fun p => decide (p < 128)) 0x40
  chk bad.isNone 0x41
  o.lim 0x42 0 2
  o.lim 0x43 0 15
  chk (decide (1 ≤ bits o.cbctl 4 0 ∧ bits o.cbctl 4 0 ≤ 16)) 0xF0
  chk (bits o.cbctl 9 8 != 3) 0xF1
  chk (!ps.isEmpty) 0xF2

/-- R147: the checks of an operation, in the order in which the first failing one gives its code. -/
def UnitOp.check (o : UnitOp) (spsz : Nat) : Except Nat Unit :=
  match o.trig with
  | 0x20 => o.lim 0x00 0 15
  | 0x21 => do
    o.range spsz 0x03
    o.range spsz 0x05
    o.lim 0x06 1 1048576
    o.lim 0x07 1 8
    o.lim 0x0B 0 1
    chk o.table.isSome 0xF2
  | 0x22 => do
    o.lim 0x01 0 15
    o.lim 0x02 0 15
    o.range spsz 0x03
    o.range spsz 0x04
    o.range spsz 0x05
    o.lim 0x06 1 1048576
    o.lim 0x07 1 4
    o.lim 0x08 1 4
    o.range spsz 0x0A
    chk (o.apart [0x03, 0x04, 0x0A]) 0xF3
  | 0x23 => do
    o.lim 0x00 0 15
    o.range spsz 0x03
    o.range spsz 0x05
    o.lim 0x06 1 1048576
    o.lim 0x07 1 4
    o.lim 0x09 0 2
    chk (o.apart [0x03]) 0xF3
  | 0x50 => o.reclusterOk
  | _ => do
    o.range spsz 0x80
    o.lim 0x81 1 1048576
    o.lim 0x82 1 4

/-- R201, R302: D, the cycles of an operation that passes its checks. -/
def UnitOp.cycles (o : UnitOp) : Nat :=
  let s := blocksOf (o.val 0x06)
  match o.trig with
  | 0x20 => 8
  | 0x21 => 8 + (o.val 0x07 + o.mapWidth) * s
  | 0x22 => 24 + (o.val 0x07 + o.val 0x08 + widthFor o.pairCount) * s
  | 0x23 => 8 + o.val 0x07 * s + (o.val 0x06 * tagBytes (o.val 0x09) + 127) / 128
  | 0x50 => 16 + o.units.pairs + 4 * ((o.units.values o).length - bits o.cbctl 4 0)
  | _ => 48 + o.val 0x82 * blocksOf (o.val 0x81)

/-- R147, R201: an operation starts in the cycle after `start`: its checks are made, on what its context holds then
(log 39), and its last cycle is known; one that fails occupies one cycle. -/
def UnitOp.started (o : UnitOp) (spsz : Nat) (x : Ctx) (start : Nat) : UnitOp :=
  let o := { o with start := start, units := x.units, cb := x.cb }
  match o.check spsz with
  | .ok _ => { o with code := none, last := start + o.cycles }
  | .error e => { o with code := some e, last := start + 1 }

/-! ## Triggers (R143, R145) -/

/-- R143, R145: the operation that a trigger move of the bundle starts. -/
def State.triggered (s : State) (port : Nat) : UnitOp :=
  let x := s.me
  let o : UnitOp := ⟨s.j, 0, port, x.units.ports, x.units.val0, x.units.val1, x.cbctl, x.cbtol, x.units, x.cb, none, 0⟩
  o.started s.mycore.spsz x s.mycore.clock

/-- R143, R229: the unit must be free, and no pool unit that the operation touches in transition. -/
def State.triggerOk (s : State) (port u : Nat) : Except Void Unit := do
  let o := s.triggered port
  need (o.ranges.all fun r => !s.mycore.scrChanging (o.val r.1) r.2.1) (.stall .mem)
  need (s.mycore.unitRuns u).isNone (.stall .unit)

/-- R143, R145: a trigger latches the context's operand ports and starts its operation. -/
def State.trigger (s : State) (port u : Nat) : Except Void State := do
  s.triggerOk port u
  let o := s.triggered port
  let s := s.updMyCore fun c => { c with unitOps := c.unitOps.set u (some o) }
  pure (s.updMe fun x => { x with units := { x.units.setRes (trigResults port) .empty with used := true } })

/-- R145. -/
def execPmovS (o : BitVec 8) (a : SSrc) (s : State) : Host.Outcome State Fault Refusal :=
  match trigUnit o.toNat with
  | some u => slot s (orHold (s.triggerOk o.toNat u) do
    let _ ← s.readS a
    s.trigger o.toNat u)
  | none => slot s (do
    let v ← s.readS a
    pure (s.updMe fun x => { x with units := { x.units with ports := x.units.ports.set o.toNat v } }))

/-! ## The end of an operation (R147, R148) -/

/-- The results of an operation, or its failing-operand code, reach its ports and the pgets that wait; an operation that
waited for it starts (R307). -/
def State.unitEnd (s : State) (n j port : Nat) (r : Except Nat (State × List Nat)) : State :=
  let t := match r with
    | .ok x => x.1
    | .error _ => s
  let res : List (Nat × PortRes) := match r with
    | .ok x => (trigResults port).zip (x.2.map fun v => .value (BitVec.ofNat 64 v))
    | .error code => (trigResults port).map fun p => (p, .failed code)
  let t := t.updCore n fun c =>
    let start := fun (p : UnitOp) =>
      if (c.opOf j port).any fun o => samePlanes o p then p.started c.spsz (c.ctx p.ctx) (max p.start (c.clock - 1)) else p
    { c with unitOps := Tbl.set ((trigUnit port).getD 0) none (c.unitOps.map fun u => (u.1, u.2.map start)) }
  let t := t.updCtx n j fun x => { x with
    units := { x.units with res := res.foldl (fun u p => u.set p.1 p.2) x.units.res } }
  t.updCore n fun c => c.settle fun i p => match p.work with
    | .pget k => if i == j then (res.find? fun e => e.1 == k).bind fun e => e.2.deliver k else none
    | _ => none

/-- An operation of a unit ends, if it runs and its cycles are over (R201): `f` is the work of one that passed its
checks. -/
def State.unitRun (s : State) (n j port : Nat) (f : UnitOp → State × List Nat) : Host.Outcome State Fault Refusal :=
  match (s.core n).opOf j port with
  | none => .next s
  | some o =>
    if (s.core n).clock ≤ o.last || (s.core n).unitWaits o then .next s
    else .next (s.unitEnd n j port (match o.code with
      | some c => .error c
      | none => .ok (f o)))

/-! ## The codebook unit -/

/-- R191: the distinct entries so far with their populations, and the table so far. -/
def dedupStep (tag : Nat) (a : List (Nat × Nat) × List Nat) (e : W32 × W32) : List (Nat × Nat) × List Nat :=
  let enc := e.1.toNat % 2 ^ (8 * tagBytes tag)
  let v := if (value (tagFmt tag) enc).isZero then 0 else enc
  match a.1.findIdx? (fun x => x.1 == v) with
  | some j => (a.1.mapIdx fun i x => if i == j then (x.1, (x.2 + e.2.toNat) % 2 ^ 32) else x, a.2 ++ [j])
  | none => (a.1 ++ [(v, e.2.toNat)], a.2 ++ [a.1.length])

/-- The entries and populations of a codebook as 16-place lists. -/
def Codebook.pairs (b : Codebook) : List (W32 × W32) := tab b.n fun i => (nth 0 b.entry i, nth 0 b.pop i)

/-- A codebook of the given entries, +0 and 0 beyond them. -/
def codebookFrom (tag : Nat) (l : List (Nat × Nat)) : Codebook :=
  ⟨l.length, tag, tab 16 fun i => BitVec.ofNat 32 (nth (0, 0) l i).1, tab 16 fun i => BitVec.ofNat 32 (nth (0, 0) l i).2⟩

/-- R191. -/
def State.dedup (s : State) (n j : Nat) (o : UnitOp) : State × List Nat :=
  let k := o.val 0x00
  let b := o.book 0x00
  let r := b.pairs.foldl (dedupStep b.tag) ([], [])
  let c := r.1.length
  let s := s.updCtx n j fun x => { x with
    cb := x.cb.set k (codebookFrom b.tag r.1),
    units := { x.units with dedup := some (r.2 ++ List.replicate (16 - r.2.length) 0), dedupN := c } }
  (s, [c, widthFor c + if widthFor c == widthFor b.n then 0 else 256])

/-- R191. -/
def execCbuDedup (core ctx : Nat) (s : State) : Host.Outcome State Fault Refusal :=
  s.unitRun core ctx 0x20 (s.dedup core ctx)

/-- R193. DESIGN CHOICE (log 83): where the ranges overlap other than as dst = src, the whole source is read before anything
is written. -/
def State.remap (s : State) (n _j : Nat) (o : UnitOp) : State × List Nat :=
  let cnt := o.val 0x06
  let wa := o.val 0x07
  let table := (o.table.getD []).toArray
  let idx := readPlanes ((s.core n).scr (o.val 0x03) (wa * planeBytes cnt)) cnt wa
  (s.updCore n fun c => c.setScr (o.val 0x05) (writePlanes (idx.map fun x => table.getD x 0) o.mapWidth), [cnt])

/-- R193. -/
def execCbuRemap (core ctx : Nat) (s : State) : Host.Outcome State Fault Refusal :=
  s.unitRun core ctx 0x21 (s.remap core ctx)

/-- R194: the FP32 encoding of an entry, widened. -/
def Codebook.wide (b : Codebook) (i : Nat) : Nat :=
  (convertAll .rne (tagFmt b.tag) .fp32 false ((nth 0 b.entry i).toNat % 2 ^ (8 * tagBytes b.tag))).1

/-- R194: populations counted by pair index. -/
def countAll (n : Nat) (l : List Nat) : List Nat :=
  (l.foldl (fun (a : Array Nat) i => a.modify i (· + 1)) (Array.replicate n 0)).toList

/-- R194. -/
def State.pair (s : State) (n j : Nat) (o : UnitOp) : State × List Nat :=
  let c := s.core n
  let cnt := o.val 0x06
  let p := planeBytes cnt
  let a := o.book 0x01
  let b := o.book 0x02
  let m := o.pairCount
  let wa := o.val 0x07
  let wb := o.val 0x08
  let xs := readPlanes (c.scr (o.val 0x03) (wa * p)) cnt wa
  let ys := readPlanes (c.scr (o.val 0x04) (wb * p)) cnt wb
  let ps := (xs.zip ys).map fun e => if e.1 < a.n && e.2 < b.n then some (e.1 * b.n + e.2) else none
  let out := writePlanes (ps.map fun e => e.getD 0) (widthFor m)
  let va := (List.range 256).flatMap fun i => toBytes 4 (if i < m then a.wide (i / b.n) else 0)
  let vb := (List.range 256).flatMap fun i => toBytes 4 (if i < m then b.wide (i % b.n) else 0)
  let s := s.updCore n fun c => (c.setScr (o.val 0x05) out).setScr (o.val 0x0A) (va ++ vb)
  let s := s.updCtx n j fun x => { x with units := { x.units with pops := countAll 256 (ps.filterMap id), pairs := m } }
  (s, [cnt])

/-- R194. -/
def execCbuPair (core ctx : Nat) (s : State) : Host.Outcome State Fault Refusal :=
  s.unitRun core ctx 0x22 (s.pair core ctx)

/-- R200. -/
def State.expand (s : State) (n _j : Nat) (o : UnitOp) : State × List Nat :=
  let cnt := o.val 0x06
  let wa := o.val 0x07
  let b := o.book 0x00
  let row := tab b.n fun i =>
    (convertAll .rne (tagFmt b.tag) (tagFmt (o.val 0x09)) false ((nth 0 b.entry i).toNat % 2 ^ (8 * tagBytes b.tag))).1
  let out := (readPlanes ((s.core n).scr (o.val 0x03) (wa * planeBytes cnt)) cnt wa).flatMap fun x =>
    toBytes (tagBytes (o.val 0x09)) (nth 0 row x)
  (s.updCore n fun c => c.setScr (o.val 0x05) out, [cnt])

/-- R200. -/
def execCbuExpand (core ctx : Nat) (s : State) : Host.Outcome State Fault Refusal :=
  s.unitRun core ctx 0x23 (s.expand core ctx)

/-! ## The re-cluster unit (R195-R197) -/

/-- R195-R197. -/
def State.recluster (s : State) (n j : Nat) (o : UnitOp) : State × List Nat :=
  let f := tagFmt (o.val 0x42)
  let l := bits o.cbctl 4 0
  let pol := bits o.cbctl 9 8
  let orig := fun (p : Nat) => (fixedOf f (o.pairEnc p)).getD 0
  let es := reduceTo f l 256 (o.units.values o)
  let table := tab 256 fun p => (es.findIdx? fun e => e.mem.contains p).getD 0
  let far := es.foldl (fun m e => e.mem.foldl (fun m p => max m (orig p - e.v).natAbs) m) 0
  let err := roundFixed .fp32 .rup far 1
  let abandon := if pol == 1 then 1 else if pol == 2 then 0 else b2n (!withinTol err (bits o.cbtol 31 0))
  let book := codebookFrom (o.val 0x42) (es.map fun e => (e.enc, e.pop % 2 ^ 32))
  let s := s.updCtx n j fun x => { x with
    cb := x.cb.set (o.val 0x43) book, units := { x.units with rcu := some table, rcuN := es.length } }
  (s, [err, es.length, abandon])

/-- R195-R197. -/
def execRcuRun (core ctx : Nat) (s : State) : Host.Outcome State Fault Refusal :=
  s.unitRun core ctx 0x50 (s.recluster core ctx)

/-! ## The entropy table builder (R301) -/

/-- A node of the Huffman tree. -/
structure HNode where
  weight : Nat
  least : Nat
  mem : List Nat
  deriving DecidableEq, Repr

/-- A node enters in ascending (weight, least) order. -/
def insertNode (x : HNode) : List HNode → List HNode
  | [] => [x]
  | y :: t =>
    if x.weight < y.weight || (x.weight == y.weight && x.least < y.least) then x :: y :: t else y :: insertNode x t

/-- The merges, from the two smallest nodes each time. -/
def huffman : Nat → List HNode → List Nat → List Nat
  | k + 1, x :: y :: t, lens =>
    huffman k (insertNode ⟨x.weight + y.weight, min x.least y.least, x.mem ++ y.mem⟩ t)
      (lens.mapIdx fun i l => if (x.mem ++ y.mem).contains i then l + 1 else l)
  | _, _, lens => lens

/-- The lengths of counted symbols. -/
def codeLengths (cnt : List Nat) : List Nat :=
  let nodes := (List.range 16).foldl (fun l i => if nth 0 cnt i == 0 then l else insertNode ⟨nth 0 cnt i, i, [i]⟩ l) []
  match nodes with
  | [x] => tab 16 fun i => if i == x.least then 1 else 0
  | _ => huffman 16 nodes (List.replicate 16 0)

/-- R301. -/
def State.buildTable (s : State) (n : Nat) (o : UnitOp) : State × List Nat :=
  let cnt := o.val 0x81
  let w := o.val 0x82
  let k := countAll 16 (readPlanes ((s.core n).scr (o.val 0x80) (w * planeBytes cnt)) cnt w)
  let lens := codeLengths k
  (s, [(tab 16 fun i => nth 0 lens i * 16 ^ i).sum, (tab 16 fun i => nth 0 lens i * nth 0 k i).sum])

/-- R301. -/
def execHtbBuild (core ctx : Nat) (s : State) : Host.Outcome State Fault Refusal :=
  s.unitRun core ctx 0x90 (s.buildTable core)

/-! ## Producers that will fail (R85, R380) -/

/-- The failure that a producer of context j of core n has met, or would meet now, and will complete with; none where it has
met none (log 91). -/
def State.failing (s : State) (n j : Nat) (p : Prod) : Option Done :=
  let fails := fun (d : Done) => match d with
    | .fail _ => some d
    | .value _ => none
  match p.work with
  | .tile o => o.err.map fun e => memFault e.1 e.2 (some o.map)
  | .post o => fails (s.postEnd n j o p.done).2
  | .pget port => (s.core n).unitOps.findSome? fun u => u.2.bind fun o =>
      if o.ctx == j && (trigResults o.trig).contains port then o.code.map (portFault port) else none
  | _ => p.done.bind fails

/-- R85: the outcome of a producer of context j of core n is open: that of a post until it reaches its queue, and of a pget until
the operation it waits for starts and is judged (R307). -/
def State.openEnd (s : State) (n j : Nat) (p : Prod) : Bool :=
  match p.work with
  | .post _ => true
  | .pget port => (s.core n).unitOps.any fun u => u.2.any fun o =>
      o.ctx == j && (trigResults o.trig).contains port && (s.core n).unitWaits o
  | _ => false

/-- R85: a producer will fail, or may. -/
def State.mayFail (s : State) (n j : Nat) (p : Prod) : Bool := (s.failing n j p).isSome || s.openEnd n j p

/-- A context whose failing producers, those of them that name one of its registers, have completed. -/
def State.failedCtx (s : State) (n j : Nat) : Ctx :=
  (s.ctx n j).prods.foldl (fun x p => match s.failing n j p with
    | some d => if p.dst == 0 || p.target != 0 then x else x.completeLive p.shadow p.dst d
    | none => x) (s.ctx n j)

/-- R399: the violation of a failing producer. -/
def State.failingViol (s : State) (n j : Nat) (p : Prod) : Option Viol :=
  match p.work, s.failing n j p with
  | .load v, some _ | .amo v, some _ => v
  | .tile o, some (.fail r) => viol o.wid r.cause r.addr
  | .post o, some (.fail r) => viol o.wid r.cause r.addr
  | _, _ => none

/-! ## Decoder tables (R127) -/

/-- R295: the code space that lengths use, in units of 2^-15. -/
def codeSpace (lens : Nat) : Nat :=
  ((List.range 16).map fun x => if lenOf lens x == 0 then 0 else 2 ^ (15 - lenOf lens x)).sum

/-- R127: the lengths are read, and their failure known, at issue. -/
def execLddt (n : BitVec 3) (a : SSrc) (d : BitVec 6) (s : State) : Host.Outcome State Fault Refusal :=
  slot s (do
    let x ← s.readS a
    let at_ := x.toNat
    let c := s.mycore
    need (at_ % 8 != 0 || !c.scrChanging at_ 8) (.stall .mem)
    if at_ % 8 != 0 || c.spsz < at_ + 8 then pure (s.produce d.toNat (.lddt n.toNat 0 3) none)
    else do
      let lens := ofBytes (s.scrOld at_ 8)
      let status := if lens == 0 then 2 else if 2 ^ 15 < codeSpace lens then 1 else 0
      pure (s.produce d.toNat (.lddt n.toNat lens status) none))

/-- R127: the oldest load into a table completes: a failure at once, a success once its bank is free. -/
def execLddtCompletion (core ctx dt : Nat) (s : State) : Host.Outcome State Fault Refusal :=
  let x := s.ctx core ctx
  match x.prods.findIdx? (fun p => match p.work with | .lddt k _ _ => k == dt | _ => false) with
  | none => .next s
  | some k =>
    match x.prods[k]? with
    | none => .next s
    | some p =>
      match p.work with
      | .lddt _ lens status =>
        if status != 0 then .next (s.finish core ctx k p (.value (BitVec.ofNat 64 (2 ^ 63 + status))))
        else
          let t := x.dt.get DTable.reset dt
          let second := t.newer == some false
          let old := if second then t.b1 else t.b0
          if old.valid && old.count != 0 then .next s
          else
            let new : DBank := ⟨true, t.g % 16, lens, 0⟩
            let t' : DTable := if second then { t with b1 := new, g := (t.g + 1) % 16 }
              else { t with b0 := new, g := (t.g + 1) % 16 }
            .next ((s.updCtx core ctx fun x => { x with dt := x.dt.set dt t' }).finish core ctx k p
              (.value (BitVec.ofNat 64 (t.g % 16))))
      | _ => .next s

/-! ## Codebook registers (R139-R142) -/

/-- R142: a running operation of the context reads or writes the codebook register. -/
def Core.cbBusy (c : Core) (j cb : Nat) : Bool :=
  c.unitOps.any fun u =>
    match u.2 with
    | none => false
    | some o => o.ctx == j && (match o.trig with
      | 0x20 | 0x23 => o.val 0x00 == cb
      | 0x22 => o.val 0x01 == cb || o.val 0x02 == cb
      | 0x50 => o.val 0x43 == cb
      | _ => false)

def State.cbFree (s : State) (cb : Nat) : Except Void Unit := need (!s.mycore.cbBusy s.j cb) (.stall .unit)

/-- R141: a well-formed image. -/
def cbImageOk (bs : List Byte) : Bool :=
  let h := numAt bs 0 4
  decide (1 ≤ h % 32 ∧ h % 32 ≤ 16 ∧ h / 256 % 4 ≠ 3) && fld h 7 5 == 0 && h / 1024 == 0 && numAt bs 4 12 == 0

/-- R141. -/
def execCbld (c : BitVec 4) (a : SSrc) (s : State) : Host.Outcome State Fault Refusal :=
  slot s (orHold (s.cbFree c.toNat) do
    let x ← s.readS a
    s.scrOk x.toNat 144 16
    s.cbFree c.toNat
    let bs := s.scrOld x.toNat 144
    need (cbImageOk bs) (faultAt 0x0C 0 0 x.toNat)
    pure (s.updMe fun y => { y with cb := y.cb.set c.toNat (codebookOf bs) }))

/-- R141. -/
def execCbst (c : BitVec 4) (a : SSrc) (s : State) : Host.Outcome State Fault Refusal :=
  slot s (orHold (s.cbFree c.toNat) do
    let x ← s.readS a
    s.scrOk x.toNat 144 16
    s.cbFree c.toNat
    let bs := (s.me.cb.get Codebook.reset c.toNat).image
    pure (s.updMyCore fun k => k.setScr x.toNat bs))

/-- R142. -/
def execCbget (d c : BitVec 4) (s : State) : Host.Outcome State Fault Refusal :=
  slot s (do
    s.cbFree c.toNat
    let b := s.me.cb.get Codebook.reset c.toNat
    let l := tab 128 fun i =>
      if i < 16 then nth 0 b.entry i else if i < 32 then nth 0 b.pop (i - 16)
      else if i == 32 then BitVec.ofNat 32 b.header else 0
    pure (s.landW .cbget (.v d.toNat) l 2 0 false))

/-- R142. -/
def execCbput (c : BitVec 4) (v : VSrc) (s : State) : Host.Outcome State Fault Refusal :=
  slot s (do
    s.cbFree c.toNat
    let w := s.readV v
    let b := s.me.cb.get Codebook.reset c.toNat
    let m := 2 ^ (8 * tagBytes b.tag)
    let e := tab 16 fun i => if i < b.n then BitVec.ofNat 32 ((lane w i).toNat % m) else nth 0 b.entry i
    pure (s.updMe fun y => { y with cb := y.cb.set c.toNat { b with entry := e } }))

/-! ## Shuffle patterns and beat programs (R112, R136) -/

/-- R111, R112: the selectors of a pattern image: two bytes each. -/
def patternOf (bs : List Byte) : List Nat := tab 128 fun i => numAt bs (2 * i) 2 % 512

/-- R112: the inactive bank is written and made active. -/
def execVpld (e : BitVec 6) (a : SSrc) (s : State) : Host.Outcome State Fault Refusal :=
  slot s (do
    let x ← s.readS a
    s.scrOk x.toNat 256 256
    let p := patternOf (s.scrOld x.toNat 256)
    pure (s.updMyCore fun c =>
      let t := c.shuffle.get ⟨none, none, false⟩ e.toNat
      let t' := if t.active1 then { t with bank0 := some p, active1 := false } else { t with bank1 := some p, active1 := true }
      { c with shuffle := c.shuffle.set e.toNat t' }))

/-- R136: a word a beat program may hold. -/
def beatOk (w : Nat) : Bool :=
  fld w 30 28 == 2 && [0, 1, 2, 3, 5, 6].contains (fld w 27 22) && (match decodeWord (w % 2 ^ 31) with
    | .ok _ => true
    | .error _ => false)

/-- R136: the count field holds the count less one. -/
def execMbld (b : BitVec 8) (a : SSrc) (n : BitVec 7) (s : State) : Host.Outcome State Fault Refusal :=
  slot s (do
    let x ← s.readS a
    let k := n.toNat + 1
    s.scrOk x.toNat (4 * k) 4
    let bs := s.scrOld x.toNat (4 * k)
    let ws := tab k fun i => numAt bs (4 * i) 4
    match ws.findIdx? (fun w => !beatOk w) with
    | some i => .error (fault 0x0B i)
    | none => pure (s.updMyCore fun c => { c with
        beats := ws.zipIdx.foldl (fun t w => t.set ((b.toNat + w.2) % 256) (BitVec.ofNat 32 w.1)) c.beats }))

end Sys2Proof.Machine
end

