-- ==== Sys2Proof/Machine/Branch.lean ====
section
/-! DEFINITION. Machine/Branch.lean: the B class (R79-R87). -/

namespace Sys2Proof.Machine

open Sys2Proof

/-- R43. -/
def execNopB (s : State) : Host.Outcome State Fault Refusal := .next s

/-- R79: a target lands in bN in 1 tick, and its bundle's fetch starts. -/
def State.prepare (s : State) (n : Nat) (target : Word) : State :=
  let c := s.mycore.clock
  (s.landS .btarget (.b n) target 1).updMe fun x => { x with prep := x.prep.set n c }

/-- R79. -/
def execPbr (n : BitVec 3) (a : SSrc) (s : State) : Host.Outcome State Fault Refusal :=
  slot s (do
    let v ← s.readS a
    pure (s.prepare n.toNat v))

/-- R79: the target counts from the bundle's own address. -/
def execPbri (n : BitVec 3) (i : BitVec 19) (s : State) : Host.Outcome State Fault Refusal :=
  .next (s.prepare n.toNat (BitVec.ofNat 64 s.issue.addr + i.signExtend 64 * 4))

/-- R80: the condition of a branch. -/
def State.taken (s : State) (q : BitVec 3) (g : Bool) : Bool := s.rd.pred q.toNat != g

/-- R81: the bubble cycles of a branch through bN. -/
def State.bubbles (s : State) (n : Nat) : Nat :=
  match s.me.prep.find? (fun e => e.1 == n) with
  | some e => 3 - (s.mycore.clock - e.2)
  | none => 3

/-- R80, R81, R321: the next bundle is at bN, after k bubble cycles. -/
def State.jumpBy (s : State) (n k : Nat) : State :=
  let target := (s.rd.b.get 0 n).toNat
  ((s.idle s.cur k).updMe fun x => x.count 0x109 k).updMe fun x => { x with pc := target }

def State.jump (s : State) (n : Nat) : State := s.jumpBy n (s.bubbles n)

/-- R80. -/
def execBr (n q : BitVec 3) (g : Bool) (s : State) : Host.Outcome State Fault Refusal :=
  .next (if s.taken q g then s.jump n.toNat else s)

/-- R80: the link is a prepared fetch of the bundle after this one, started as the call issues, before its bubbles. -/
def execCall (n q : BitVec 3) (g : Bool) (s : State) : Host.Outcome State Fault Refusal :=
  .next (if s.taken q g then
    (s.prepare 7 (BitVec.ofNat 64 s.issue.next)).jumpBy n.toNat (s.bubbles n.toNat) else s)

/-- R80. -/
def execRet (q : BitVec 3) (g : Bool) (s : State) : Host.Outcome State Fault Refusal :=
  .next (if s.taken q g then s.jump 7 else s)

/-- R83, R85: the context will be settled at the boundary of its bundle: no landing is outstanding and none
of the slots still to run schedules one. -/
def State.willSettle (s : State) : Bool :=
  s.mycore.settled s.j && s.issue.slots.all fun i => match i with
    | .crd _ _ => false
    | _ => true

/-- R84, R157: an honoured pmark raises a pending store fault. -/
def execPmark (s : State) : Host.Outcome State Fault Refusal :=
  let x := s.me
  slot s (do
    if x.preq && x.level == 0 && !x.uih && s.willSettle then s.ordering else pure ()
    pure (s.request .pmark))

/-- R85. -/
def execSuspend (s : State) : Host.Outcome State Fault Refusal :=
  let x := s.me
  slot s (do
    s.ordering
    need (x.level == 0 && !x.uih) (fault 0x05 1)
    need s.willSettle (fault 0x05 0)
    pure (s.request .suspend))

/-- R85. DESIGN CHOICE (log 90): an end in a user-level handler (UIH = 1, LEVEL 0) ends the item as any other end does. The
bundle's other slots take effect first, and the end waits at its boundary; the bundle waits, without effect, only for a producer
of an earlier bundle that will fail, or that may, whose fault is then raised at it (R380; log 91). DESIGN CHOICE (log 107):
where a register is empty-faulted and the context is not settled either, the deferred fault is raised, not the unsettled-suspension fault. -/
def execEndB (s : State) : Host.Outcome State Fault Refusal :=
  slot s (do
    s.ordering
    match s.me.faultAtEnd with
    | some v => .error v
    | none => pure ()
    need (s.rd.prods.all fun p => p.dst == 0 || p.target != 0 || !s.mayFail s.cur s.j p) (.stall .mem)
    need s.willSettle (fault 0x05 0)
    pure (s.request (.endItem s.issue.addr)))

end Sys2Proof.Machine
end

