-- ==== Sys2Proof/Machine/Engines.lean ====
section
/-! DEFINITION. Machine/Engines.lean: the copy engines and transform units: taking a packet, moving its bytes, the rows of
a gather or scatter, and the messages of collectives (R172-R182, R240, R241, R275, R312-R315). -/

namespace Sys2Proof.Machine

open Sys2Proof

/-! ## The box of a copy packet (R173) -/

/-- The coordinates of element k of a box, dimension 0 innermost. -/
def unrank : List Nat → Nat → List Nat
  | [], _ => []
  | e :: t, k => k % e :: unrank t (k / e)

/-- The coordinates an endpoint gives the elements of the box. -/
def cpCoords (p : List Byte) (dst : Bool) : List (List Nat) :=
  tab (cpCount p) fun k => (cpOrg p dst).zipWith (· + ·) (unrank (cpExt p) k)

/-- R24: the two-dimensional slices of a BPN8 tensor are cut into 128×128 tiles. -/
def Handle.tiled (h : Handle) : Bool := h.e 0 % 128 == 0 && h.e 1 % 128 == 0

/-- R24: bytes of a plane: those of a tile, or of a slice of another shape, padded to a whole sector (log 86). -/
def Handle.planeBytes (h : Handle) : Nat := if h.tiled then 2048 else roundUp ((h.e 0 * h.e 1 + 7) / 8) 128

/-- R24, R292: where an element of a BPN8 tensor lies in plane 0, as byte address and bit; plane k lies k planes above.
None outside the extents. -/
def Handle.bitAt (h : Handle) (c : List Nat) : Option (Nat × Nat) :=
  let x := fun (d : Nat) => nth 0 c d
  if (List.range 5).any fun d => decide (h.e d ≤ x d) then none
  else
    let slice := h.base + x 2 * h.st 2 + x 3 * h.st 3 + x 4 * h.st 4
    if h.tiled then
      let i := x 1 % 128 * 128 + x 0 % 128
      some (slice + 16384 * (x 1 / 128 * (h.e 0 / 128) + x 0 / 128) + i / 8, i % 8)
    else
      let i := x 1 * h.e 0 + x 0
      some (slice + i / 8, i % 8)

/-- R24: the padding bits of the planes that elements lie in, as byte address and bit: those of a plane of another shape than a
128×128 tile, after its last element. -/
def Handle.padBits (h : Handle) (cs : List (List Nat)) : List (Nat × Nat) :=
  if h.tiled then []
  else
    let n := h.e 0 * h.e 1
    let slices := (cs.filter fun c => (h.bitAt c).isSome).map fun c =>
      h.base + nth 0 c 2 * h.st 2 + nth 0 c 3 * h.st 3 + nth 0 c 4 * h.st 4
    slices.eraseDups.flatMap fun a => (List.range 8).flatMap fun k =>
      tab (8 * h.planeBytes - n) fun i => (a + h.planeBytes * k + (n + i) / 8, (n + i) % 8)

/-- The runs of a dense or tiled endpoint. -/
def Handle.boxRuns (h : Handle) (p : List Byte) (dst : Bool) : List (Option Nat × Nat) :=
  joinRuns h.esz ((cpCoords p dst).map h.elem)

/-- The device accesses of an endpoint: address and bytes; of a destination in planes its padding too. -/
def Handle.boxAccesses (h : Handle) (p : List Byte) (dst : Bool) : List (Nat × Nat) :=
  if h.kind == 2 then
    (((cpCoords p dst).filterMap h.bitAt).flatMap fun e => tab 8 fun k => (e.1 + h.planeBytes * k, 1))
      ++ (if dst then ((h.padBits (cpCoords p dst)).map fun b => (b.1, 1)).eraseDups else [])
  else (h.boxRuns p dst).filterMap fun r => r.1.map fun a => (a, r.2 * h.esz)

/-- R173: a handle a copy may name. -/
def Handle.copies (h : Handle) (esz : Nat) : Bool :=
  h.kind ≤ 2 && h.esz == esz && (h.kind != 2 || h.fmt == 5)

/-! ## Pages translated and pinned at take (R176) -/

/-- The first refusal of a list of accesses. -/
def State.checkAll (s : State) (v : Nat) (a : Acc) (user : Bool) : List (Nat × Nat) → Except (Nat × Nat) Unit
  | [] => .ok ()
  | x :: t =>
    match s.devCheck [] v x.1 x.2 a user with
    | .error e => .error e
    | .ok _ => s.checkAll v a user t

/-- The translations and pins of a packet grow. -/
def Packet.hold (p : Packet) (h : List TlbEntry × List Nat) : Packet :=
  { p with tlb := p.tlb ++ h.1, pinned := p.pinned ++ h.2 }

/-! ## Checks at take (R172-R176) -/

/-- A local range of a packet, unchecked once the packet has been taken. -/
def Packet.local_ (p : Packet) (w : Nat) : Local := (localOf p.me w).getD ⟨0, 0, 0⟩

/-- An endpoint of a copy: its handle entry, none where it is local; or CODE and logged address. -/
def State.cpEnd (s : State) (p : Packet) (dst : Bool) : State × Except (Nat × Nat) (Option Handle) :=
  let user := p.level == 0
  let hn := fld (cpEp p.image dst) 11 0
  if cpLocal p.image dst then
    match s.pkLocal p.me p.vdev (cpWord p.image dst) (max p.exp 1) 1 with
    | none => (s, .error (1, p.slot))
    | some _ => (s, .ok none)
  else
    let r := s.readHandle p.vdev hn user
    match r.2 with
    | .error e => (r.1, .error (causeCode e.1, e.2))
    | .ok h =>
      if !h.copies (cpEsz p.image) then (r.1, .error (2, s.handleVa p.vdev hn))
      else match r.1.checkAll p.vdev (if dst then .w else .r) user (h.boxAccesses p.image dst) with
        | .error e => (r.1.walked [] p.vdev e.2, .error (causeCode e.1, e.2))
        | .ok _ => (r.1, .ok (some h))

/-- A copy packet's checks: its endpoints translated and pinned. -/
def State.cpTake (s : State) (p : Packet) : State × Except (Nat × Nat) Packet :=
  if !cpOk p.image then (s, .error (1, p.slot))
  else if 2 ^ 40 - 1 < p.exp then (s, .error (5, p.slot))
  else
    let a := s.cpEnd p false
    match a.2 with
    | .error e => (a.1, .error e)
    | .ok hs =>
      let b := a.1.cpEnd p true
      match b.2 with
      | .error e => (b.1, .error e)
      | .ok hd =>
        let l := (hs.map fun h => h.boxAccesses p.image false).getD [] ++ (hd.map fun h => h.boxAccesses p.image true).getD []
        (b.1.walkPages p.vdev l, .ok ({ p with src := hs, dst := hd }.hold (b.1.holdPages p.vdev l)))

/-- R174, R240: a transform packet's checks: both endpoints in one cluster. -/
def State.trTake (s : State) (p : Packet) : Except (Nat × Nat) Packet :=
  let n := trN p.image
  let cl := fun (l : Local) => if l.space == 0 then clusterOf l.loc else l.loc
  if !trOk p.image then .error (1, p.slot)
  else if 2 ^ 40 - 1 < p.exp then .error (5, p.slot)
  else
    match s.pkLocal p.me p.vdev (numAt p.image 16 8) (max 1 (n * trSrcBytes p.image)) 1,
        s.pkLocal p.me p.vdev (numAt p.image 24 8) (max 1 (n * trDstBytes p.image)) 1 with
    | some a, some b => if cl a == cl b then .ok p else .error (1, p.slot)
    | _, _ => .error (1, p.slot)

/-- R175, R177, R239: a gather or scatter packet's checks; its index vector, at a multiple of 4 (log 85), and its row area
lie in a scratchpad. A handle that cannot be used sets every active lane's bit. -/
def State.gTake (s : State) (p : Packet) : State × Except (Nat × Nat) Packet :=
  let d := gDesc p.image
  let bad := (s, Except.error (1, p.slot))
  if !gOk d || !bodyZero p.image then bad
  else match s.pkScr p.me p.vdev (numAt p.image 16 8) 512 4 with
    | none => bad
    | some li =>
      let bs := s.localRead li 512
      let idx := tab 128 fun i => numAt bs (4 * i) 4
      if (s.pkScr p.me p.vdev (numAt p.image 32 8) (max 1 p.exp) 128).isNone then bad
      else if 2 ^ 40 - 1 < p.exp then (s, .error (5, p.slot))
      else
        let r := s.gHandle p.vdev d (p.level == 0)
        match r.2 with
        | .error e =>
          let s := match r.1.pkTb p.me p.vdev p.image with
            | some l => r.1.localWrite (l.plus 16) (toBytes 16 (laneBits (activeLanes idx)))
            | none => r.1
          (s, .error (causeCode e.1, e.2))
        | .ok h => (r.1.walkPages p.vdev (h.gAccesses d idx),
            .ok ({ p with src := some h, idx := idx }.hold (r.1.holdPages p.vdev (h.gAccesses d idx))))

/-- R180, R313: a collective packet's checks: the party entries at GROUP. -/
def State.collTake (s : State) (p : Packet) (party : Party) : State × Except (Nat × Nat) Packet :=
  let r := s.devRead p.vdev party.group (8 * party.npart) (p.level == 0)
  match r.2 with
  | .error e => (r.1, .error (causeCode e.1, e.2))
  | .ok bs =>
    let es := tab party.npart fun i => numAt bs (8 * i) 8
    if r.1.entriesOk { party with entries := es } then (r.1.takeParty party es p.eng, .ok p)
    else (r.1, .error (1, p.slot))

/-- The barrier of a packet, with its bitmap. -/
def State.pkBar (s : State) (p : Packet) : List (Local × Nat) :=
  ((s.pkTb p.me p.vdev p.image).map fun l => (l, pkTbBytes p.image)).toList

/-- The local ranges of a packet: its barrier's, and those of its endpoints. -/
def State.pkLocals (s : State) (p : Packet) : List (Local × Nat) :=
  let b := p.image
  s.pkBar p ++ match pkKind b with
  | 1 => [false, true].filterMap fun d => if cpLocal b d then some (p.local_ (cpWord b d), p.exp) else none
  | 2 | 3 => [(p.local_ (numAt b 32 8), p.exp)]
  | 5 => [(p.local_ (numAt b 16 8), trN b * trSrcBytes b), (p.local_ (numAt b 24 8), p.exp)]
  | _ => []

/-- R230: the cores where ranges of a list lie in units in transition. -/
def State.movingCores (s : State) (l : List (Local × Nat)) : List Nat :=
  ((l.filter fun x => s.localMoving x.1 x.2).map fun x => x.1.loc).eraseDups

/-! ## Taking a packet (R172, R275) -/

/-- The party a coll slot belongs to. -/
def State.partyAt (s : State) (v slot : Nat) : Option Party :=
  s.parties.find? fun x => x.vdev == v && x.slot == slot && !x.taken

/-- The packet in a slot whose SEQ matches, as the engine takes it, and whether its expectation was posted. -/
def State.packetAt (s : State) (v q hdr slot eng n : Nat) (image : List Byte) : Packet × Bool × Bool :=
  let pa := (s.lookup [] v slot).map (·.pa)
  let b := s.slotBits.find? fun b => some b.pa == pa && b.posted
  let p : Packet := ⟨v, q, hdr, slot, eng, n, image, b.map (·.by_), (b.map (·.level)).getD 0, (b.map (·.wid)).getD 0, 0,
    none, none, [], [], [], []⟩
  (p, b.isSome, b.any (·.coll))

/-- R176: the checks of a packet's kind. -/
def State.pkTake (s : State) (p : Packet) (coll : Bool) : State × Except (Nat × Nat) Packet :=
  if !headOk p.image coll || !s.pkTbOk p.me p.vdev p.image then (s, .error (1, p.slot))
  else match pkKind p.image with
    | 1 => s.cpTake p
    | 5 => (s, s.trTake p)
    | 4 =>
      match s.partyAt p.vdev p.slot with
      | some party => s.collTake p party
      | none => (s, .error (1, p.slot))
    | _ => s.gTake p

/-- The engine takes a packet: STATE 1, the expectation where the home has not kept the posted bit, the checks. The party of a
collective packet that fails them is kept, its entries unread, as one that has ended (R312). -/
def State.takeSlot (s : State) (p : Packet) (posted coll : Bool) : State :=
  let s := s.putStatus p.vdev p.slot 1 p.own none
  let x := match s.partyAt p.vdev p.slot, coll with
    | some party, true => (s, party.expect)
    | _, _ => s.pkExp p.me p.vdev (p.level == 0) p.image
  let p := { p with exp := x.2 }
  let s := if posted || p.exp == 0 then x.1 else x.1.engineBar p.vdev (x.1.pkTb p.me p.vdev p.image) p.exp 0 false
  let r := s.pkTake p coll
  match r.2 with
  | .error e =>
    let s := match r.1.partyAt p.vdev p.slot, coll with
      | some y, true => (r.1.updParty y fun x => { x with taken := true, done := true, entries := [] }).dropRemotes y
      | _, _ => r.1
    s.packetEnd p e.1 e.2
  | .ok q =>
    let q := { q with late := r.1.movingCores (r.1.pkLocals q) }
    { r.1.pin q.pinned with packets := r.1.packets ++ [q] }

/-- R268: the device ranges that the checks and the bytes of a packet reach. -/
def State.pkRanges (s : State) (p : Packet) (group : Nat × Nat) : List (Nat × Nat) :=
  let user := p.level == 0
  let entry := fun (hn : Nat) (f : Handle → List (Nat × Nat)) =>
    (s.handleVa p.vdev hn, 64) :: (match (s.readHandle p.vdev hn user).2 with
      | .ok h => f h
      | .error _ => [])
  let ep := fun (dst : Bool) => if cpLocal p.image dst || !cpOk p.image then []
    else entry (fld (cpEp p.image dst) 11 0) fun h => if h.copies (cpEsz p.image) then h.boxAccesses p.image dst else []
  let d := gDesc p.image
  match pkKind p.image with
  | 1 => ep false ++ ep true
  | 2 | 3 => entry (fld d 11 0) fun h => match s.pkScr p.me p.vdev (numAt p.image 16 8) 512 4 with
    | some l => h.gAccesses d (tab 128 fun i => numAt (s.localRead l 512) (4 * i) 4)
    | none => []
  | 4 => [group]
  | _ => []

/-- R275: the slot that queue q of a virtual device has for its engine: the engine, the header, the slot's number and
its image; none where it has none or must wait. -/
def State.readySlot (s : State) (v q : Nat) : Option (QHdr × Nat × List Byte) :=
  let w := (s.vdev v).cqtab.get 0 q
  if 64 ≤ q || !tabOn w then none
  else match (s.devRead v (tabVa w) 64 false).2 with
  | .error _ => none
  | .ok bs =>
    match qHdr bs false with
    | none => none
    | some h =>
      let n := max (s.ti v (tabVa w) false) h.ri
      let busy := (s.packets.filter fun p => p.eng == h.eng).length
      if h.wi ≤ n || 8 ≤ busy then none
      else match (s.devRead v (h.slot n) 64 false).2 with
      | .error _ => none
      | .ok image =>
        let held := pkOrdered image && s.packets.any fun p => p.vdev == v && p.queue == q
        if numAt image 2 2 != h.seq n || held then none else some (h, n, image)

/-- The copy queues that engine e has a slot to take from. -/
def State.readyQueues (s : State) (e : Nat) : List (Nat × Nat) :=
  s.vdevs.flatMap fun d => (List.range 64).filterMap fun q =>
    if (s.readySlot d.1 q).any fun r => r.1.eng == e then some (d.1, q) else none

/-- R273, R275: the engine of queue q of a virtual device takes its next slot, if it may and it is the queue's turn. DESIGN CHOICE
(log 126): where the header or the slot cannot be read, nothing is taken or logged. -/
def execPacketTake (vdev q : Nat) (s : State) : Host.Outcome State Fault Refusal :=
  let w := (s.vdev vdev).cqtab.get 0 q
  let hv := tabVa w
  if 64 ≤ q || !tabOn w || s.anyMoving vdev [(hv, 64)] then .next s
  else
    let r := s.devRead vdev hv 64 false
    match r.2 with
    | .error _ => .next r.1
    | .ok bs =>
      match qHdr bs false with
      | none => .next (r.1.errorLog (numAt bs 25 1 / 4 % 4) 3 hv)
      | some h =>
        match r.1.readySlot vdev q with
        | none => .next r.1
        | some (_, n, image) =>
          let slot := h.slot n
          let p := r.1.packetAt vdev q hv slot h.eng n image
          let group := match r.1.partyAt vdev slot with
            | some party => (party.group, 8 * party.npart)
            | none => (0, 0)
          let next := nextTurn (r.1.lastServed h.eng) (r.1.readyQueues h.eng)
          let waits := r.1.anyMoving vdev ((slot, 64) :: r.1.pkRanges p.1 group) || !(r.1.movingCores (r.1.pkBar p.1)).isEmpty
          if waits || next != some (vdev, q) then .next r.1
          else
            let b := (r.1.devRead vdev slot 64 false).1
            let s := { b with turns := b.turns.set h.eng (vdev, q) }
            .next ((s.setTi vdev hv false (n + 1)).takeSlot p.1 p.2.1 p.2.2)

/-! ## Moving a copy packet's bytes (R173, R176) -/

/-- Bytes read sector by sector, those of a sector refused mid-transfer spoiled; the first refused address. -/
def State.readSpoil (s : State) (e : Eng) : List (Nat × Nat) → State × List (Option Byte) × Option Nat
  | [] => (s, [], none)
  | (va, k) :: t =>
    let r := s.devReadT e.tlb e.vdev va k e.user
    let b := match r.2 with
      | .ok bs => (bs.map some, none)
      | .error x => (List.replicate k none, some x.2)
    let q := r.1.readSpoil e t
    (q.1, b.1 ++ q.2.1, b.2.or q.2.2)

/-- The runs of a dense or tiled source. -/
def State.readBox (s : State) (e : Eng) (h : Handle) : List (Option Nat × Nat) → State × List (Option Byte) × Option Nat
  | [] => (s, [], none)
  | (a, k) :: t =>
    let r := match a with
      | some va => s.readSpoil e (sectorPieces (k * h.esz / 128 + 2) va (k * h.esz))
      | none => (s, ((List.replicate k (toBytes h.esz h.pad)).flatten).map some, none)
    let q := r.1.readBox e h t
    (q.1, r.2.1 ++ q.2.1, r.2.2.or q.2.2)

/-- The elements of a BPN8 source. -/
def State.planesAt (s : State) (e : Eng) (h : Handle) : List (List Nat) → State × List (Option Byte) × Option Nat
  | [] => (s, [], none)
  | c :: t =>
    let r := match h.bitAt c with
      | none => (s, some (BitVec.ofNat 8 h.pad), none)
      | some (va, b) =>
        let r := s.readSpoil e (tab 8 fun k => (va + h.planeBytes * k, 1))
        let bits : List (Option Nat) := tab 8 fun k => (nth none r.2.1 k).map fun (x : Byte) => x.toNat / 2 ^ b % 2 * 2 ^ (7 - k)
        (r.1, if bits.all (·.isSome) then some (BitVec.ofNat 8 ((bits.map fun (x : Option Nat) => x.getD 0).sum)) else none, r.2.2)
    let q := r.1.planesAt e h t
    (q.1, r.2.1 :: q.2.1, r.2.2.or q.2.2)

/-- R176: the bytes of the source. -/
def State.cpRead (s : State) (p : Packet) : State × List (Option Byte) × Option Nat :=
  match p.src with
  | none => (s, (s.localRead (p.local_ (cpWord p.image false)) p.exp).map some, none)
  | some h =>
    if h.kind == 2 then s.planesAt p.access h (cpCoords p.image false)
    else s.readBox p.access h (h.boxRuns p.image false)

/-- Spoiled bytes hold a free value each. -/
def State.freeBytes (s : State) : List (Option Byte) → State × List Byte
  | [] => (s, [])
  | b :: t =>
    let r := match b with
      | some b => (s, b)
      | none => ({ s with fresh := s.fresh + 1 }, Config.freeByte s.fresh)
    let q := r.1.freeBytes t
    (q.1, r.2 :: q.2)

/-- R258: the sectors of bytes written poisoned. -/
def State.poisonAt (s : State) (e : Eng) (vas : List Nat) : State :=
  let xs := (vas.filterMap fun va => (s.lookup e.tlb e.vdev va).map fun t => t.pa / 128).eraseDups
  { s with poison := xs ++ s.poison.filter fun x => !xs.contains x }

/-- The addresses of the spoiled bytes of a run. -/
def spoiled (va : Nat) (bs : List (Option Byte)) : List Nat :=
  bs.zipIdx.filterMap fun b => if b.1.isNone then some (va + b.2) else none

/-- The runs of a destination written; elements outside the extents are not. The first refused address: a page was translated
at the take, but its memory may have gone since (R256). -/
def State.writeBox (s : State) (e : Eng) (esz : Nat) : List (Option Nat × Nat) → List (Option Byte) → State × Option Nat
  | [], _ => (s, none)
  | (a, k) :: t, bs =>
    let here := bs.take (k * esz)
    let r : State × Option Nat := match a with
      | some va =>
        let f := s.freeBytes here
        let w := f.1.devWriteT e.tlb e.vdev va f.2 e.user e.own
        (w.1.poisonAt e (spoiled va here), match w.2 with
          | .error x => some x.2
          | .ok _ => none)
      | none => (s, none)
    let q := r.1.writeBox e esz t (bs.drop (k * esz))
    (q.1, r.2.or q.2)

/-- Bits to write, grouped by the byte they lie in: its address and (bit, value, spoiled). -/
def groupBits : List (Nat × Nat × Bool × Bool) → List (Nat × List (Nat × Bool × Bool))
  | [] => []
  | (a, x) :: t =>
    match groupBits t with
    | (b, l) :: r => if a == b then (b, x :: l) :: r else (a, [x]) :: (b, l) :: r
    | [] => [(a, [x])]

/-- A byte with the bits of a group written. -/
def mergeBits (old : Nat) (l : List (Nat × Bool × Bool)) : Nat :=
  l.foldl (fun b x => b - b / 2 ^ x.1 % 2 * 2 ^ x.1 + b2n x.2.1 * 2 ^ x.1) old

/-- The elements of a BPN8 destination written: the bits of every byte merged, the padding bits of their planes zero (R24); a
free byte where one is spoiled. -/
def State.writePlaneBits (s : State) (e : Eng) (h : Handle) (cs : List (List Nat)) (bs : List (Option Byte)) :
    State × Option Nat :=
  let ws := ((h.padBits cs).map fun b => (b.1, b.2, false, false)) ++ (cs.zip bs).flatMap fun c =>
    match h.bitAt c.1 with
    | none => []
    | some (va, b) => tab 8 fun k => (va + h.planeBytes * k, b, (c.2.getD 0).toNat / 2 ^ (7 - k) % 2 == 1, c.2.isNone)
  let gs := groupBits (ws.mergeSort fun x y => x.1 ≤ y.1)
  let bytes := gs.map fun g =>
    let old := match s.lookup e.tlb e.vdev g.1 with
      | some t => (s.mem.read t.pa).toNat
      | none => 0
    if g.2.any fun x => x.2.2 then none else some (BitVec.ofNat 8 (mergeBits old g.2))
  s.writeBox e 1 (joinRuns 1 (gs.map fun g => some g.1)) bytes

/-- R176: the bytes of the destination; the first refused address. -/
def State.cpWrite (s : State) (p : Packet) (bs : List (Option Byte)) : State × Option Nat :=
  match p.dst with
  | none =>
    let f := s.freeBytes bs
    (f.1.localWrite (p.local_ (cpWord p.image true)) f.2, none)
  | some h =>
    if h.kind == 2 then s.writePlaneBits p.access h (cpCoords p.image true) bs
    else s.writeBox p.access h.esz (h.boxRuns p.image true) bs

/-- R176, R256: a copy packet runs to its end. DESIGN CHOICE (log 110): with CODE 6 where a read, or a write since its take, was
refused, the first address logged. -/
def State.copyPacket (s : State) (p : Packet) : State :=
  let r := s.cpRead p
  let w := r.1.cpWrite p r.2.1
  let bad := r.2.2.or w.2
  w.1.packetEnd p (if bad.isSome then 6 else 0) (bad.getD 0)

/-! ## Gather and scatter packets (R175, R178, R179) -/

/-- The lanes of a gather or scatter packet in ascending order, k counting them: the bitmap of those that fail. -/
def State.gPacketRows (s : State) (p : Packet) (h : Handle) (rows : Local) : List Nat → Nat → State × Nat
  | [], _ => (s, 0)
  | i :: t, k =>
    let d := gDesc p.image
    let rs := h.rs (gBase d) (gLen d)
    let c := nth 0 p.idx i
    let at_ := rows.plus (k * rs)
    let r := if pkKind p.image == 2 then
        let g := s.gatherLane p.access h (gBase d) (gLen d) (gDim d) c
        (g.1.localWrite at_ g.2.1, g.2.2)
      else s.scatterLane p.access h (gBase d) (gLen d) (gDim d) c (s.localRead at_ rs)
    let s := match r.2.2 with
      | some x => r.1.queueLog p.vdev p.hdr x.2 (engKind x.1) false p.agent p.wid p.own
      | none => r.1
    let q := s.gPacketRows p h rows t (k + 1)
    (q.1, q.2 + if r.2.1 then 2 ^ i else 0)

/-- A gather or scatter packet runs to its end; its failing rows are logged in the queue (log 35). -/
def State.gatherPacket (s : State) (p : Packet) : State :=
  match p.src with
  | none => s
  | some h =>
    let r := s.gPacketRows p h (p.local_ (numAt p.image 32 8)) (activeLanes p.idx) 0
    let s := match r.1.pkTb p.me p.vdev p.image with
      | some l => r.1.localWrite (l.plus 16) (toBytes 16 r.2)
      | none => r.1
    s.packetEnd p 0 0

/-- R181: a collective packet ends once everything it sends has been accepted or cancelled. -/
def State.collPacket (s : State) (p : Packet) : State :=
  match s.parties.find? fun x => x.vdev == p.vdev && x.slot == p.slot && x.taken && !x.done with
  | none => s.packetEnd { p with exp := 0 } 1 p.slot
  | some x =>
    if !x.sentAll then s
    else ((s.updParty x fun y => { y with done := true }).dropRemotes x).packetEnd { p with exp := 0 } 0 0

/-- R230: a packet checked after the setpool of a running conversion waits for it, where it reaches a unit in transition. -/
def State.pkWaits (s : State) (p : Packet) : Bool := (s.movingCores (s.pkLocals p)).any p.late.contains

/-- R7, R245: the local endpoints of a packet still lie in its virtual device, and in the scratchpads or SRAMs they were checked
for: a conversion may have taken their units since. DESIGN CHOICE (log 110): such a packet ends with CODE 1. -/
def State.pkHome (s : State) (p : Packet) : Bool :=
  let ok := fun (w n : Nat) => s.localVdev (p.local_ w) == p.vdev && s.localFits (p.local_ w) (max 1 n) 1
  let b := p.image
  match pkKind b with
  | 1 => (!cpLocal b false || ok (cpWord b false) p.exp) && (!cpLocal b true || ok (cpWord b true) p.exp)
  | 2 | 3 => ok (numAt b 32 8) p.exp
  | 5 => ok (numAt b 16 8) (trN b * trSrcBytes b) && ok (numAt b 24 8) p.exp
  | _ => true

/-- R176, R181: packet k of those being served ends, where it can. -/
def execPacketCompletion (k : Nat) (s : State) : Host.Outcome State Fault Refusal :=
  match s.packets[k]? with
  | none => .next s
  | some p =>
    if s.pkWaits p || s.anyMoving p.vdev [(p.hdr, 64), (p.slot, 64)] then .next s
    else if !s.pkHome p then .next (s.packetEnd p 1 p.slot)
    else match pkKind p.image with
      | 1 => .next (s.copyPacket p)
      | 2 | 3 => .next (s.gatherPacket p)
      | 4 => .next (s.collPacket p)
      | _ => .next s

/-! ## Transform packets (R240, R241) -/

/-- The set bits among the first n of a number. -/
def popcount (n m : Nat) : Nat := ((List.range n).filter fun i => m / 2 ^ i % 2 == 1).length

/-- The stored form of a raw block; none where it does not fit blk units (R240). -/
def compressBlock (raw blk : Nat) (bs : List Byte) : Option (List Byte) :=
  let sec := fun (i : Nat) => (bs.drop (128 * i)).take 128
  let on := (List.range raw).filter fun i => (sec i).any (· != 0)
  if 128 * blk < 16 + 128 * on.length then none
  else
    let out := toBytes 8 (on.map fun i => 2 ^ i).sum ++ toBytes 8 0 ++ on.flatMap sec
    some (out ++ List.replicate (128 * blk - out.length) 0)

/-- The sectors rebuilt from a stored block's bitmap. -/
def expandFrom (m : Nat) : List Nat → List Byte → List Byte
  | [], _ => []
  | i :: t, bs =>
    if m / 2 ^ i % 2 == 1 then bs.take 128 ++ expandFrom m t (bs.drop 128) else List.replicate 128 0 ++ expandFrom m t bs

/-- The raw form of a stored block; none where its bitmap is malformed (R241). -/
def expandBlock (raw blk : Nat) (bs : List Byte) : Option (List Byte) :=
  let m := numAt bs 0 8
  if 2 ^ raw ≤ m || blk - 1 < popcount 64 m then none else some (expandFrom m (List.range raw) (bs.drop 16))

/-- One block of a transform packet; none where it is not written. -/
def trBlock (p : List Byte) (bs : List Byte) : Option (List Byte) :=
  match trOp p with
  | 1 => compressBlock (trRaw p) (trBlk p) bs
  | 2 => expandBlock (trRaw p) (trBlk p) bs
  | _ => some bs

/-- Blocks from b on, in ascending order: whether one was not written. -/
def State.trBlocks (s : State) (p : Packet) : Nat → Nat → State × Bool
  | 0, _ => (s, false)
  | n + 1, b =>
    let src := (p.local_ (numAt p.image 16 8)).plus (b * trSrcBytes p.image)
    let dst := (p.local_ (numAt p.image 24 8)).plus (b * trDstBytes p.image)
    let r := match trBlock p.image (s.localRead src (trSrcBytes p.image)) with
      | some bs => (s.localWrite dst bs, false)
      | none => (s, true)
    let q := r.1.trBlocks p n (b + 1)
    (q.1, r.2 || q.2)

/-- R240: two transform packets of a cluster run at a time. -/
def State.trRuns (s : State) (p : Packet) : Bool :=
  let cl := fun (x : Packet) =>
    let l := x.local_ (numAt x.image 16 8)
    if l.space == 0 then clusterOf l.loc else l.loc
  let mine := s.packets.filter fun x => pkKind x.image == 5 && cl x == cl p
  (mine.take 2).contains p

/-- R241: transform packet k of those being served ends. -/
def execTransformCompletion (k : Nat) (s : State) : Host.Outcome State Fault Refusal :=
  match s.packets[k]? with
  | none => .next s
  | some p =>
    if pkKind p.image != 5 || s.pkWaits p || !s.trRuns p || s.anyMoving p.vdev [(p.hdr, 64), (p.slot, 64)] then .next s
    else if !s.pkHome p then .next (s.packetEnd p 1 p.slot)
    else
      let r := s.trBlocks p (trN p.image) 0
      .next (r.1.packetEnd p (if r.2 then 7 else 0) 0)

/-! ## Rows of a gather or scatter instruction (R177-R179, R285) -/

def GatherOp.bar (g : GatherOp) : Local := ⟨g.tbSpace, g.tbLoc, g.tb⟩

/-- The accesses of the operation's rows. -/
def State.gEng (s : State) (g : GatherOp) : Eng := ⟨[], s.vdevOf g.core, g.level == 0, ctxNum g.core g.ctx⟩

/-- A failure of a row or an entry in the issuing context's violation log (R178, R398): AGENT names a copy engine of the Pier
die that is the row's home, which of its four the spec leaves open; any of the 16 where the address names no home (log 23). -/
def State.gLog (s : State) (g : GatherOp) (cause addr : Nat) : State :=
  let e := Config.engineOf s.fresh
  let agent := 0x8000 + match s.lookup [] (s.vdevOf g.core) addr with
    | some t => 4 * homePier t.pa + e % 4
    | none => e % 16
  let s := { s with fresh := s.fresh + 1 }
  s.updCtx g.core g.ctx fun x => { x with vlog := logTbl x.vlog addr (engKind cause) agent g.wid }

/-- The last update of an operation: the bitmap first, then the bytes; a user-level interrupt waits for the phase
they count toward. -/
def State.gLast (s : State) (g : GatherOp) (sub : Nat) (err : Bool) : State :=
  let l := g.bar
  let s := if s.localFits l 32 16 then s.localWrite (l.plus 16) (toBytes 16 g.bitmap) else s
  let ph := (barrierOf (s.localRead l 16)).phase
  let any := err || sub != 0
  let s := if g.uirq && any then { s with uirqs := s.uirqs ++ [⟨l.space, l.loc, l.off, ph, ctxNum g.core g.ctx⟩] } else s
  if any then s.engineBar (s.vdevOf g.core) (some l) 0 sub err else s

/-- R177: an operation whose handle cannot be used. -/
def State.gFail (s : State) (g : GatherOp) (cause : Nat) : State :=
  let s := if cause == 5 then s else s.gLog g cause g.hva
  s.gLast { g with bitmap := laneBits (activeLanes g.idx) } 0 true

/-- The lane's row is served; the operation goes on with the other lanes or ends. -/
def State.gServed (s : State) (k : Nat) (g : GatherOp) (i : Nat) (bad : Bool) : State :=
  let g' := { g with todo := g.todo.erase i, bitmap := g.bitmap + if bad then 2 ^ i else 0 }
  if g'.todo.isEmpty then ({ s.unpin g.pinned with gathers := dropAt s.gathers k }).gLast g' g.rs false
  else ({ s with gathers := s.gathers.set k g' }).engineBar (s.vdevOf g.core) (if g.rs == 0 then none else some g.bar) 0 g.rs false

/-- R178, R179, R266, R268: lane i of operation k, where it may be served: its pages are pinned until the last row. -/
def State.gRow (s : State) (k i : Nat) (g : GatherOp) : State :=
  match g.handle with
  | .error c => ({ s with gathers := dropAt s.gathers k }).gFail g c
  | .ok h =>
    if g.todo.isEmpty then ({ s with gathers := dropAt s.gathers k }).gLast g 0 false
    else if !g.todo.contains i then s
    else
      let c := nth 0 g.idx i
      let at_ : Local := ⟨0, g.core, g.rows + rankOf g.idx i * g.rs⟩
      let e := s.gEng g
      let ranges := if h.e g.dim ≤ c then []
        else (h.rowRuns g.base g.len g.dim c).filterMap fun r => r.1.map fun a => (a, r.2 * h.esz)
      let behind := g.scatter && g.todo.any fun j => decide (j < i) && nth 0 g.idx j == c
      if s.anyMoving e.vdev ranges || behind then s
      else
      let hold := (s.holdPages e.vdev ranges).2
      let s := s.pin hold
      let g := { g with pinned := g.pinned ++ hold }
      let log := fun (r : State × Bool × Option (Nat × Nat)) => match r.2.2 with
        | some x => r.1.gLog g x.1 x.2
        | none => r.1
      if g.scatter then
        let r := s.scatterLane e h g.base g.len g.dim c (s.localRead at_ g.rs)
        (log r).gServed k g i r.2.1
      else
        let r := s.gatherLane e h g.base g.len g.dim c
        let t := log (r.1, r.2.2)
        let t := if t.localFits at_ g.rs 1 then t.localWrite at_ r.2.1 else t
        t.gServed k g i r.2.2.1

/-- R178. -/
def execGatherRow (k lane : Nat) (s : State) : Host.Outcome State Fault Refusal :=
  match s.gathers[k]? with
  | some g => .next (if g.scatter then s else s.gRow k lane g)
  | none => .next s

/-- R179. -/
def execScatterRow (k lane : Nat) (s : State) : Host.Outcome State Fault Refusal :=
  match s.gathers[k]? with
  | some g => .next (if g.scatter then s.gRow k lane g else s)
  | none => .next s

/-! ## Messages of collectives (R182, R312-R315) -/

/-- R312: party k is announced to the engines of the other parties, once its packet has been taken. -/
def execCollectiveAnnounce (k : Nat) (s : State) : Host.Outcome State Fault Refusal :=
  match s.parties[k]? with
  | none => .next s
  | some p => .next (if p.taken && !p.announced && !p.refused then s.announce p else s)

/-- R182: the next plane of the k-th transfer that a sender may make to a party directly. -/
def execPlaneLanding (k : Nat) (s : State) : Host.Outcome State Fault Refusal :=
  match (s.parties.flatMap fun p => s.jobsOf p true)[k]? with
  | none => .next s
  | some j => .next (s.runJob j)

/-- R313: the next plane of the k-th transfer that a relay may forward. -/
def execRelayForward (k : Nat) (s : State) : Host.Outcome State Fault Refusal :=
  match (s.parties.flatMap fun p => s.jobsOf p false)[k]? with
  | none => .next s
  | some j => .next (s.runJob j)

/-- R314: cancel k reaches the sender or relay one hop upstream, which sends no further plane of the tile. -/
def execCancelUpstream (k : Nat) (s : State) : Host.Outcome State Fault Refusal :=
  match s.cancels[k]? with
  | none => .next s
  | some m =>
    let t := { s with cancels := dropAt s.cancels k }
    match t.sendFar .cancel m, s.partyOf m.vdev m.group m.tag m.dst with
    | some u, _ => .next u
    | none, none => .next s
    | none, some p => .next (t.updParty p fun x => { x with stopped := x.stopped ++ [planeKey m.block m.src m.tile] })

/-- R314: truncation k, after the planes already forwarded. -/
def execTruncation (k : Nat) (s : State) : Host.Outcome State Fault Refusal :=
  match s.truncs[k]? with
  | none => .next s
  | some m =>
    let t := { s with truncs := dropAt s.truncs k }
    .next (if t.noticeHeld m then s else (t.downTell m false).getD s)

/-- R315: error notice k. -/
def execErrorNotice (k : Nat) (s : State) : Host.Outcome State Fault Refusal :=
  match s.notices[k]? with
  | none => .next s
  | some m =>
    let t := { s with notices := dropAt s.notices k }
    .next (if t.noticeHeld m then s else (t.downTell m true).getD s)

end Sys2Proof.Machine
end

