-- ==== Sys2Proof/Machine/Sched.lean ====
section
/-! DEFINITION. Machine/Sched.lean: the launch scheduler, the dispensers, the clusters' record lists, the selector of a
core, and the interrupts and pre-emptions taken at a boundary (R275-R282, R318, R325-R346, R381, R382, R432). -/

namespace Sys2Proof.Machine

open Sys2Proof

/-! ## Taking a launch (R325-R327) -/

/-- R325: the fields of a launch slot. DESIGN CHOICE (log 115): STATUS bits 31:12 of a posted slot, which R325 gives as zero
without an outcome where they are not, are not looked at. -/
def launchSlotOk (p : List Byte) : Bool :=
  let fl := numAt p 1 1
  numAt p 0 1 == 1 && fld fl 7 5 == 0 && fl % 2 == 0 && decide (fld fl 4 2 ≤ 4) && numAt p 8 8 % 512 == 0
    && numAt p 24 40 == 0

/-- R331: the affinity word permits a cluster. -/
def clusterIn (aff c : Nat) : Bool := decide ((c + 64 - fld aff 21 16) % 64 < fld aff 28 22)

/-- R331: the clusters of a virtual device that the affinity word permits, from CFIRST on. -/
def State.permitted (s : State) (v aff : Nat) : List Nat :=
  ((List.range 64).map fun i => (fld aff 21 16 + i) % 64).filter fun c => clusterIn aff c && (s.cluster c).vdev == v

/-- R326, R327: the limits and zero fields of a launch header. -/
def launchHdrOk (h : List Byte) : Bool :=
  let nf := numAt h 28 1
  let nd := numAt h 29 1
  let aff := numAt h 32 8
  let w := fun (i : Nat) => numAt h (40 + i) 1
  let e := fun (i : Nat) => numAt h (48 + 8 * i) 8
  numAt h 0 8 % 4 == 0 && numAt h 8 8 % 256 == 0 && numAt h 16 8 % 64 == 0
    && decide (1 ≤ numAt h 24 4 ∧ numAt h 24 4 ≤ 65536 ∧ 1 ≤ nf ∧ nf ≤ 6 ∧ nd ≤ 16)
    && fld (numAt h 30 1) 7 3 == 0 && numAt h 31 1 == 0 && fld aff 63 29 == 0 && fld aff 7 0 == 0
    && decide (1 ≤ fld aff 28 22 ∧ fld aff 28 22 ≤ 64) && fld (numAt h 46 2) 15 12 == 0
    && (List.range 6).all (fun i =>
      if i < nf then decide (1 ≤ w i ∧ w i ≤ 64) && (if w i == 64 then true else decide (1 ≤ e i ∧ e i ≤ 2 ^ w i))
      else w i == 0 && e i == 0)
    && decide (((List.range nf).map w).sum ≤ 64) && (h.drop 96).take 160 == List.replicate 160 0
    && (List.range 16).all (fun d => decide (d < nd) || numAt h (256 + 16 * d) 16 == 0)

/-- The launch a header describes. -/
def launchOf (v q hv slot : Nat) (p h : List Byte) : Launch :=
  let nf := numAt h 28 1
  let ext := fun (i : Nat) => numAt h (48 + 8 * i) 8
  { vdev := v, queue := q, qva := hv, slotVa := slot, hdr := numAt p 8 8, arg := numAt p 16 8,
    scope := fld (numAt p 1 1) 4 2, pc := numAt h 0 8, save := numAt h 8 8, recs := numAt h 16 8, nrec := numAt h 24 4,
    nfield := nf, prio := numAt h 30 1 % 8, priaff := numAt h 32 8 + numAt h 30 1 % 8,
    widths := tab nf (fun i => numAt h (40 + i) 1), exts := tab nf (fun i => if ext i == 0 then 2 ^ 64 else ext i),
    policy := numAt h 46 2,
    disps := tab (numAt h 29 1) (fun d => ⟨numAt h (256 + 16 * d) 8, numAt h (264 + 16 * d) 8, 0, []⟩),
    next := 0, live := [], retries := [], kills := [], killedAll := false, lastCluster := 0, placed := false,
    ended := false, heavies := [] }

/-- R327: a failing launch starts nothing. -/
def State.launchFail (s : State) (v hv slot hdr code : Nat) : State :=
  let s := s.devPut v (slot + 4) (toBytes 4 (3 + 16 * code)) 0xFFF
  (s.queueLog v hv hdr (codeKind code) false 0xFFFD 0 0xFFF).advanceRi v hv true 0xFFF

/-- The launch of a slot that the scheduler has claimed. -/
def State.launchStart (s : State) (v q hv slot : Nat) (p : List Byte) : State :=
  let hdr := numAt p 8 8
  if !launchSlotOk p then s.launchFail v hv slot hdr 1
  else
    let r := s.devRead v hdr 512 false
    match r.2 with
    | .error e => r.1.launchFail v hv slot hdr (causeCode e.1)
    | .ok h =>
      let s := r.1
      let aff := numAt h 32 8
      if !launchHdrOk h || fld aff 15 8 == 0 || (s.permitted v aff).isEmpty then s.launchFail v hv slot hdr 1
      else
        let k := s.launches.keys.foldl max 0 + 1
        let s := s.devPut v (slot + 4) (toBytes 4 1) 0xFFF
        { s with launches := s.launches.set k (launchOf v q hv slot p h) }

/-- R275: the slot that launch queue q of a virtual device has for the scheduler: its address, number and image; none where
it has none or must wait. -/
def State.readyLaunch (s : State) (v q : Nat) : Option (Nat × Nat × List Byte) :=
  let w := (s.vdev v).lqtab.get 0 q
  if 16 ≤ q || !tabOn w then none
  else match (s.devRead v (tabVa w) 64 false).2 with
  | .error _ => none
  | .ok bs =>
    match qHdr bs true with
    | none => none
    | some h =>
      let n := max (s.ti v (tabVa w) true) h.ri
      let active := (s.launches.filter fun l => l.2.vdev == v && l.2.queue == q && !l.2.ended).length
      if h.wi ≤ n || 16 ≤ active then none
      else match (s.devRead v (h.slot n) 64 false).2 with
      | .error _ => none
      | .ok p => if numAt p 2 2 != h.seq n || (pkOrdered p && active != 0) then none else some (h.slot n, n, p)

/-- The scheduler among the serving agents, after the 16 copy engines. -/
def schedAgent : Nat := 16

/-- R273, R275, R325: the scheduler takes the next launch of queue q of a virtual device, if it may and it is the queue's
turn. DESIGN CHOICE (log 126): where the header or the slot cannot be read, nothing is taken or logged. -/
def execLaunchTake (vdev q : Nat) (s : State) : Host.Outcome State Fault Refusal :=
  let w := (s.vdev vdev).lqtab.get 0 q
  let hv := tabVa w
  if 16 ≤ q || !tabOn w || s.anyMoving vdev [(hv, 64)] then .next s
  else
    let r := s.devRead vdev hv 64 false
    match r.2 with
    | .error _ => .next r.1
    | .ok bs =>
      match qHdr bs true, r.1.readyLaunch vdev q with
      | none, _ => .next (r.1.errorLog 0 3 hv)
      | some _, none => .next r.1
      | some _, some (slot, n, p) =>
        let ready := r.1.vdevs.flatMap fun d => (List.range 16).filterMap fun k =>
          if (r.1.readyLaunch d.1 k).isSome then some (d.1, k) else none
        if r.1.anyMoving vdev [(slot, 64), (numAt p 8 8, 512)]
            || nextTurn (r.1.lastServed schedAgent) ready != some (vdev, q) then .next r.1
        else
          let b := (r.1.devRead vdev slot 64 false).1
          let s := { b with turns := b.turns.set schedAgent (vdev, q) }
          .next ((s.setTi vdev hv true (n + 1)).launchStart vdev q hv slot p)

/-! ## Records (R329-R334, R432) -/

/-- R333: the bytes of a new record. -/
def Launch.record (l : Launch) (i : Item) : List Byte :=
  toBytes 8 l.pc ++ toBytes 8 i.wid ++ toBytes 8 (l.save + 0x3B900 * i.slot)
    ++ toBytes 8 (fld l.hdr 51 9 * 512 + i.retry % 4 * 16 + 1) ++ toBytes 8 0 ++ toBytes 8 l.priaff ++ toBytes 16 0

/-- R334: the next permitted cluster after the one that received the previous record. -/
def State.nextCluster (s : State) (l : Launch) : Option Nat :=
  let cs := s.permitted l.vdev l.priaff
  if l.placed then ((List.range 64).map fun i => (l.lastCluster + 1 + i) % 64).find? fun c => cs.contains c
  else cs.head?

/-- R334: the lowest free record slot. -/
def Launch.freeSlot (l : Launch) : Option Nat :=
  (List.range l.nrec).find? fun k => !(l.live.any fun i => i.slot == k) && !(l.retries.any fun i => i.slot == k)

/-- A record is written, by no context (R257), and placed; one that cannot be written fails its item before it runs (R432). -/
def State.placeRecord (s : State) (k : Nat) (l : Launch) (i : Item) (cl : Nat) : State :=
  let s := s.updLaunch k fun l => { l with live := l.live ++ [i], lastCluster := cl, placed := true }
  let addr := l.recAt i.slot
  let w := s.recWrite l.vdev addr (l.record i) 0xFFF
  match w.2 with
  | .error e => w.1.failSlot k i.slot i.wid (recCause e.1) e.2 0xFFFD
  | .ok _ => w.1.enqueue cl l.prio ⟨addr, k, w.1.time⟩

/-- R268: record slot k of a launch lies in a page that migrates. -/
def State.slotMoving (s : State) (l : Launch) (k : Nat) : Bool := s.anyMoving l.vdev [(l.recAt k, recBytes)]

/-- R328, R334, R340, R341: the scheduler creates a launch's next record, a retry first; a killed identifier is
skipped. DESIGN CHOICE (log 116): once every cluster that the launch's affinity permits has left its virtual device, nothing
is created and the launch waits. -/
def execRecordCreate (launch : Nat) (s : State) : Host.Outcome State Fault Refusal :=
  match s.launch launch with
  | none => .next s
  | some l =>
    match s.nextCluster l with
    | none => .next s
    | some cl =>
      match l.retries with
      | i :: t =>
        let drop := s.updLaunch launch fun l => { l with retries := t }
        if l.dead i.wid then .next (drop.launchCheck launch)
        else .next (if s.slotMoving l i.slot then s else drop.placeRecord launch l i cl)
      | [] =>
        if l.ended || l.killedAll || l.items ≤ l.next then .next s
        else
          let wid := l.widOf l.next
          let skip := s.updLaunch launch fun l => { l with next := l.next + 1 }
          if l.dead wid then .next (skip.launchCheck launch)
          else match l.freeSlot with
            | none => .next s
            | some k => .next (if s.slotMoving l k then s else skip.placeRecord launch l ⟨k, wid, 0⟩ cl)

/-! ## Lists of a cluster (R278-R282, R336) -/

/-- R331: the priority-and-affinity word of a record permits core n. -/
def recordPermits (r : List Byte) (n : Nat) : Bool :=
  let aff := numAt r 40 8
  clusterIn aff (clusterOf n) && fld aff 15 8 / 2 ^ (n % 8) % 2 == 1

/-- R345: a record permits a core; one that cannot be read permits every core. -/
def State.permits (s : State) (v n : Nat) (e : Entry) : Bool :=
  match (s.recRead v e.addr recBytes).2 with
  | .error _ => true
  | .ok r => recordPermits r n

/-- A core may take a record: it is permitted, the record is not KILLED (R330), and the array is free for one that holds
array state (R353). One that cannot be read is picked up, and fails then (R432). -/
def State.mayRun (s : State) (v n : Nat) (e : Entry) : Bool :=
  match (s.recRead v e.addr recBytes).2 with
  | .error _ => true
  | .ok r =>
    let fl := numAt r 24 8
    recordPermits r n && fld fl 3 3 == 0 && !(fld fl 1 1 == 1 && fld fl 6 6 == 1 && (s.core n).owner.isSome)

/-- R280: the record of a cluster that core n may take: its list and itself. -/
def State.choose (s : State) (cl n : Nat) : Option (Nat × Entry) :=
  [7, 6, 5, 4, 3, 2, 1, 0].findSome? fun p =>
    (((s.cluster cl).lists.get [] p).find? fun e => s.mayRun (s.cluster cl).vdev n e).map fun e => (p, e)

/-- The contexts of a cluster in number order. -/
def clusterCtxs (cl : Nat) : List (Nat × Nat) :=
  (List.range 8).flatMap fun k => (List.range Config.contexts).map fun j => (8 * cl + k, j)

def State.idleCtxs (s : State) (cl : Nat) : List (Nat × Nat) :=
  (clusterCtxs cl).filter fun c => (s.ctx c.1 c.2).held.isNone

/-- A record leaves a list of a cluster. -/
def State.unlink (s : State) (cl p : Nat) (e : Entry) : State :=
  s.setListOf cl p (((s.cluster cl).lists.get [] p).filter fun x => x != e)

/-- R268: a record, or its save area, lies in a page that migrates. -/
def State.entryMoving (s : State) (e : Entry) : Bool :=
  !s.migrations.isEmpty && (s.launch e.launch).any fun l =>
    s.anyMoving l.vdev [(e.addr, recBytes), (l.save + 0x3B900 * l.slotOf e.addr, 0x3B900)]

/-- An idle context takes the record chosen for it, unless its leaving the list has killed its item (R341, R432). -/
def State.takeRecord (s : State) (cl n j : Nat) (c : Nat × Entry) : State :=
  let s := (s.unlink cl c.1 c.2).updCluster (clusterOf n) fun x => { x with idle := 0 }
  if s.entryDead c.2 then s.dropDead c.2 else s.pickup n j c.2

/-- R280: one cycle of a cluster's record lists: the lowest idle context that may run a record takes it. DESIGN CHOICE
(log 112): the consecutive cycles without a record that R282 asks for are counted once for the cluster, from its last
pick-up or steal on, and not for each idle context. -/
def execRecordPickup (cluster : Nat) (s : State) : Host.Outcome State Fault Refusal :=
  let idle := s.idleCtxs cluster
  match idle.findSome? (fun c => (s.choose cluster c.1).map fun r => (c, r)) with
  | some (c, r) => .next (if s.entryMoving r.2 then s else s.takeRecord cluster c.1 c.2 r)
  | none => .next (s.updCluster cluster fun c => { c with idle := if idle.isEmpty then 0 else min 64 (c.idle + 1) })

/-- A record moves up one list, if it still stands on its own. -/
def State.age (s : State) (cl p : Nat) (e : Entry) : State :=
  if ((s.cluster cl).lists.get [] p).contains e then (s.unlink cl p e).enqueue cl (p + 1) { e with since := s.time } else s

/-- R281: the records of a cluster that have waited AGE_TICKS cycles move up one list, in the order in which they
entered theirs. -/
def execRecordAging (cluster : Nat) (s : State) : Host.Outcome State Fault Refusal :=
  let c := s.cluster cluster
  let now := s.time
  let due := (List.range 7).flatMap fun p =>
    ((c.lists.get [] p).filter fun e => decide (c.ageTicks ≤ now - e.since)).map fun e => (p, e)
  let due := due.mergeSort fun a b => decide (a.2.since ≤ b.2.since)
  .next (due.foldl (fun s d => s.age cluster d.1 d.2) s)

/-- R282: the clusters that cluster c examines. -/
def stealOrder (c : Nat) : List Nat :=
  [1, 7, 2, 6, 3, 5, 4].map fun d => c / 8 * 8 + (c + d) % 8

/-- R282: an idle context of a cluster that has found no record for 64 cycles takes one of another cluster. -/
def execRecordSteal (cluster : Nat) (s : State) : Host.Outcome State Fault Refusal :=
  let from_ := fun (n : Nat) => (stealOrder cluster).findSome? fun c =>
    if (s.cluster c).vdev != (s.cluster cluster).vdev then none else (s.choose c n).map fun r => (c, r)
  if (s.cluster cluster).idle < 64 then .next s
  else match (s.idleCtxs cluster).findSome? (fun c => (from_ c.1).map fun r => (c, r)) with
    | none => .next s
    | some (c, r) => .next (if s.entryMoving r.2.2 then s else s.takeRecord r.1 c.1 c.2 r.2)

/-! ## Dispensers (R318) -/

/-- A context of the cluster holds a record of the launch. -/
def State.runsLaunch (s : State) (cl launch : Nat) : Bool :=
  (clusterCtxs cl).any fun c => (s.ctx c.1 c.2).held.any fun h => h.launch == launch

/-- An identifier enters a list in ascending order. -/
def insertId (x : Nat) : List Nat → List Nat
  | [] => [x]
  | y :: t => if x ≤ y then x :: y :: t else y :: insertId x t

/-- R318: up to n identifiers of a dispenser, returned ones first. -/
def Disp.batch (d : Disp) (n : Nat) : List Nat × Disp :=
  let a := d.ret.take n
  let k := min (n - a.length) (d.count - d.next)
  (a ++ tab k (fun i => (d.first + d.next + i) % 2 ^ 64), { d with ret := d.ret.drop n, next := d.next + k })

def Launch.disp (l : Launch) (d : Nat) : Disp := nth ⟨0, 0, 0, []⟩ l.disps d

/-- R318: a cluster that runs the launch and holds 4 identifiers or fewer gets up to 8. -/
def execDispenserBatchRequest (cluster launch d : Nat) (s : State) : Host.Outcome State Fault Refusal :=
  match s.launch launch with
  | none => .next s
  | some l =>
    let b := (s.cluster cluster).batch launch d
    if l.disps.length ≤ d || 4 < b.ids.length || !s.runsLaunch cluster launch then .next s
    else
      let r := (l.disp d).batch 8
      .next ((s.updLaunch launch fun l => { l with disps := l.disps.set d r.2 }).updCluster cluster fun c =>
        c.setBatch { b with ids := b.ids ++ r.1 })

/-- The batches of a launch that a cluster holds go back to the scheduler. -/
def State.returnBatches (s : State) (cluster launch : Nat) (l : Launch) : State :=
  (List.range l.disps.length).foldl (fun s d =>
    let b := (s.cluster cluster).batch launch d
    if b.ids.isEmpty then s
    else (s.updLaunch launch fun l => { l with
        disps := l.disps.set d { l.disp d with ret := b.ids.foldl (fun r i => insertId i r) (l.disp d).ret } }).updCluster
      cluster fun c => c.setBatch { b with ids := [] }) s

/-- R318: a cluster none of whose contexts holds a record of the launch returns its batches. -/
def execDispenserBatchReturn (cluster launch : Nat) (s : State) : Host.Outcome State Fault Refusal :=
  match s.launch launch with
  | none => .next s
  | some l => .next (if s.runsLaunch cluster launch then s else s.returnBatches cluster launch l)

/-- R318: exhaustion is broadcast once nothing is left and every batch is back. -/
def execDispenserExhaustion (launch d : Nat) (s : State) : Host.Outcome State Fault Refusal :=
  match s.launch launch with
  | none => .next s
  | some l =>
    let x := l.disp d
    let held := (List.range Config.numClusters).any fun c => !((s.cluster c).batch launch d).ids.isEmpty
    if l.disps.length ≤ d || x.next < x.count || !x.ret.isEmpty || held then .next s
    else
      .next ((List.range Config.numClusters).foldl (fun s c =>
        s.updCluster c fun y => y.setBatch { y.batch launch d with done := true }) s)

/-! ## The selector (R342, R343, R395) -/

/-- R342, R341: the context may issue. -/
def Ctx.ready (x : Ctx) : Bool := x.held.isSome && x.stall.isNone && !x.waiting && x.pend == .none && !x.killed

/-- The next ready context after the current one, in round-robin order. -/
def Core.nextReady (c : Core) : Option Nat :=
  ([1, 2, 3].map fun d => (c.cur + d) % 4).find? fun j => (c.ctx j).ready

/-- R343, R395: the selector leaves the current context for context j: 2 cycles. -/
def State.switchTo (s : State) (n j : Nat) : State :=
  let s := s.updCore n fun c =>
    let x := c.ctx c.cur
    let caps := x.flights.filter fun f => f.unit.sWide
    let c := if x.held.isSome then { c with pool := c.pool.writeN (ctxArea c.cur + 0x800) (capTable caps) } else c
    let c := if x.held.isSome then c.setCtx c.cur ((c.ctx c.cur).count 0x10D 1) else c
    { (c.dropFifo c.cur).count 0x121 2 with cur := j, run := 0 }
  s.pass n 2 fun _ => false

/-- R342: the current context of a core is stalled or idle, and another is ready. -/
def execSwitchOnStall (core : Nat) (s : State) : Host.Outcome State Fault Refusal :=
  let c := s.core core
  match c.nextReady with
  | some j => .next (if (c.ctx c.cur).ready then s else s.switchTo core j)
  | none => .next s

/-- R342: the current context has issued for its quantum while another was ready. -/
def execSwitchQuantumExpiry (core : Nat) (s : State) : Host.Outcome State Fault Refusal :=
  let c := s.core core
  match c.nextReady with
  | some j => .next (if Config.quantum ≤ c.run then s.switchTo core j else s)
  | none => .next s

/-! ## Interrupts (R285, R286, R381, R382) -/

/-- The context is at a boundary where something may be taken: it holds a record whose item has not been killed (R341), and no
request of its last bundle is waiting. -/
def Ctx.atBoundary (x : Ctx) : Bool := x.held.isSome && x.pend == .none && !x.killed

/-- A stalled bundle is given up for what is taken before it. -/
def State.dropBundle (s : State) (n j : Nat) : State :=
  s.updCore n fun c =>
    let c := c.unclaim j
    c.setCtx j { c.ctx j with stall := none, waiting := false, claimWait := none }

/-- An interrupt (R383). -/
def interrupt (cause : Nat) : Raise := ⟨cause, 0, 0, none, none, false⟩

/-- R138, R346: an open play of the context stands inside an iteration. -/
def Core.midPlay (c : Core) (j : Nat) : Bool := c.play.any fun p => p.ctx == j && p.home == (c.ctx j).depth && p.pos != 0

/-- R381: a timer or notice interrupt is due at the context's boundary: its cause. -/
def Ctx.interruptDue (x : Ctx) : Option Nat :=
  if !x.atBoundary || x.level == 1 || x.uih then none
  else if x.timer then some 0x40
  else if x.notice then some 0x41
  else none

/-- R381-R383: the supervisor interrupt that is due is taken, where the context is current, once no unit operation of it runs
(R202). -/
def execSupervisorTrapEntry (core ctx : Nat) (s : State) : Host.Outcome State Fault Refusal :=
  let x := s.ctx core ctx
  match x.interruptDue with
  | none => .next s
  | some c =>
    if (s.core core).cur != ctx || (s.core core).unitBusy ctx || (s.core core).midPlay ctx then .next s
    else
      let s := (s.dropBundle core ctx).updCtx core ctx fun x =>
        if c == 0x40 then { x with timer := false } else { x with notice := false }
      .next (s.takeTrap core ctx (interrupt c) x.pc)

/-- R286: a user-level interrupt is due. -/
def Ctx.userDue (x : Ctx) : Bool :=
  x.atBoundary && x.level == 0 && !x.uih && x.upend != 0 && bit x.uivec 0

/-- R286, R353: the user-level interrupt that is due is taken, where no supervisor trap is due and the context is current. -/
def execUserInterruptEntry (core ctx : Nat) (s : State) : Host.Outcome State Fault Refusal :=
  let x := s.ctx core ctx
  if !x.userDue || x.interruptDue.isSome || (s.core core).cur != ctx || (s.core core).unitBusy ctx || (s.core core).midPlay ctx then .next s
  else .next ((s.dropBundle core ctx).takeUser core ctx x.pc)

/-- R382: TIMERn of a cluster's context reaches its deadline. -/
def execTimerExpiry (cluster n : Nat) (s : State) : Host.Outcome State Fault Refusal :=
  let core := 8 * cluster + n / 4
  .next (if decide (n < 32) && s.timerDue core (n % 4) then s.timerPend core (n % 4) else s)

/-- R382: NOTICE posts notice interrupts. -/
def execNoticeWrite (cluster w : Nat) (s : State) : Host.Outcome State Fault Refusal :=
  .next (if Config.numClusters ≤ cluster then s else (List.range 32).foldl (fun s n =>
    if w / 2 ^ n % 2 == 1 then s.updCtx (8 * cluster + n / 4) (n % 4) fun x => { x with notice := true, ev := true } else s) s)

/-! ## Pre-emption (R345-R347) -/

/-- R345: a request reaches a context; one that holds no record drops it. -/
def Ctx.request (x : Ctx) : Ctx :=
  if x.held.isNone then x else { x with preq := true, preqTicks := if x.preq then x.preqTicks else 0, ev := true }

/-- R345: CPREQ. -/
def execCpreqWrite (cluster w : Nat) (s : State) : Host.Outcome State Fault Refusal :=
  .next (if Config.numClusters ≤ cluster then s else (List.range 32).foldl (fun s n =>
    if w / 2 ^ n % 2 == 1 then s.updCtx (8 * cluster + n / 4) (n % 4) Ctx.request else s) s)

/-- R345: the context a cluster asks for the record at the head of list p. -/
def State.victim (s : State) (cl p : Nat) : Option (Nat × Nat) :=
  match (s.cluster cl).lists.get [] p with
  | [] => none
  | e :: _ =>
    let ok := (clusterCtxs cl).filter fun c => s.permits (s.cluster cl).vdev c.1 e
    if ok.any fun c => (s.ctx c.1 c.2).held.isNone then none
    else
      let prio := fun (c : Nat × Nat) => ((s.ctx c.1 c.2).held.map (·.prio)).getD 8
      let low := (ok.map prio).foldl min 8
      if low < p then ok.find? fun c => prio c == low else none

/-- R345: a cluster raises its request, one at a time; those of CPREQ are not its own. DESIGN CHOICE (log 125): of several lists
whose heads qualify, the highest raises it. -/
def execPreemptionRequest (cluster : Nat) (s : State) : Host.Outcome State Fault Refusal :=
  if (clusterCtxs cluster).any fun c => (s.ctx c.1 c.2).asked then .next s
  else match [7, 6, 5, 4, 3, 2, 1].findSome? (s.victim cluster) with
    | some c => .next (s.updCtx c.1 c.2 fun x => { x.request with asked := true })
    | none => .next s

/-- R346: the core takes a heavy pre-emption of the context. -/
def State.heavyDue (s : State) (n j : Nat) : Bool :=
  let x := s.ctx n j
  x.atBoundary && x.preq && x.level == 0 && !x.uih && decide ((s.core n).pbound ≤ x.preqTicks) && !(s.core n).midPlay j

/-- R346, R347. -/
def execHeavyPreemption (core ctx : Nat) (s : State) : Host.Outcome State Fault Refusal :=
  .next (if s.heavyDue core ctx then (s.dropBundle core ctx).carryOrWait core ctx .heavy else s)

/-! ## Kills (R341, R353) -/

/-- R341: a killed item stops at its context's boundary: its landings are discarded, and it leaves once its producers and
unit operations are complete. One that is ending has ended; a capture under way completes and is discarded (R353). -/
def execItemKill (core ctx : Nat) (s : State) : Host.Outcome State Fault Refusal :=
  let x := s.ctx core ctx
  match x.killed, x.held, x.pend with
  | false, _, _ => .next s
  | true, none, _ => .next s
  | true, some _, .endItem _ => .next s
  | true, some h, .heavy =>
    .next (if s.mustWait core ctx .heavy then s else (s.carry core ctx .heavy).sweep h.launch)
  | true, some _, _ =>
    let s := (s.dropBundle core ctx).updCtx core ctx fun x => { x with flights := [], pend := .none }
    .next (if (s.core core).busy ctx then s else s.killNow core ctx)

end Sys2Proof.Machine
end

