-- ==== Sys2Proof/Machine/System.lean ====
section
/-! DEFINITION. Machine/System.lean: the X class and the conversion of a setpool (R88-R96, R209-R219, R228-R230). -/

namespace Sys2Proof.Machine

open Sys2Proof

/-- R43. -/
def execNopX (s : State) : Host.Outcome State Fault Refusal := .next s

/-- R88. -/
def execTrap (i : BitVec 16) (s : State) : Host.Outcome State Fault Refusal := .next (s.request (.trap i.toNat))

/-- R89. -/
def execReti (s : State) : Host.Outcome State Fault Refusal :=
  slot s (do
    s.privileged 0x02
    need (s.me.depth != 0) (fault 0x04 0)
    pure (s.request (.reti [])))

/-- R90. DESIGN CHOICE (log 92): at LEVEL 1, in a supervisor handler nested on a user-level one (UIH = 1), no user-level handler
runs. -/
def execUret (s : State) : Host.Outcome State Fault Refusal :=
  slot s (do
    need (s.me.uih && s.me.level == 0) (fault 0x04 0)
    pure (s.request (.uret [])))

/-! ## Control registers (R91, R209) -/

/-- Registers that hold a field marked /S (R4, R213, R217, R218, R321). -/
def supervisorReg (r : Nat) : Bool :=
  [0x014, 0x028, 0x029, 0x040, 0x041, 0x042, 0x043, 0x044].contains r || decide (0x120 ≤ r)

/-- R4: a user-level access to such a register. -/
def State.regAllowed (s : State) (r : Nat) : Except Void Unit :=
  need (!supervisorReg r || s.rd.level == 1) (fault 0x02 r)

/-- R91: the register as it stands before the bundle's landings and its own cwr. -/
def execCrd (d : BitVec 6) (n : BitVec 12) (s : State) : Host.Outcome State Fault Refusal :=
  slot s (do
    s.regAllowed n.toNat
    pure (s.landS .crd (sdst d) (s.ctlWord s.cur (s.issue.before.getD s.mycore) s.j n.toNat) 1))

/-- R3, R212, R219: bits 63 and 62 are cleared where v has them set. -/
def w1c (old v : Word) : Word := old &&& ~~~(keep v 63 62)

/-- R322: a counter written in a bundle counts that bundle's events after the write. -/
def countAgain (before now : Tbl Word) (r : Nat) (v : Word) : Tbl Word := now.set r (v + (now.get 0 r - before.get 0 r))

/-- R3, R221: what a write of v to register r leaves in context j of core n; other registers ignore it. -/
def State.ctlWrite (s : State) (n j r : Nat) (v : Word) : State :=
  let x := s.ctx n j
  let old := s.issue.before.getD (s.core n)
  let ctx := fun (y : Ctx) => s.setCtx n j y
  match r with
  | 0x000 => ctx { x with ev := bit v 0 }
  | 0x001 => ctx { x with rm := bits v 1 0 }
  | 0x002 => ctx { x with vstat := BitVec.ofNat 5 v.toNat }
  | 0x003 => ctx { x with mstat := BitVec.ofNat 5 v.toNat }
  | 0x008 => ctx { x with dfault := x.dfault.set 0 (w1c (x.dfault.get 0 0) v) }
  | 0x014 => s.updCore n fun c => { c with lwbase := keep v 51 21 ||| keep v 0 0 }
  | 0x024 => ctx { x with uivec := keep v 63 2 ||| keep v 0 0 }
  | 0x025 => ctx { x with uipc := keep v 63 2 }
  | 0x028 => s.updCore n fun c => { c with pbound := bits v 23 0 }
  | 0x029 => s.updCluster (clusterOf n) fun c => { c with ageTicks := bits v 31 0 }
  | 0x030 => ctx { x with cbctl := keep v 9 8 ||| keep v 4 0 }
  | 0x031 => ctx { x with cbtol := keep v 31 0 }
  | 0x040 => s.updCore n fun c => { c with tvec := keep v 63 8 }
  | 0x043 =>
    let s := ctx { x with trappc := keep v 63 2 }
    if x.level == 1 then s.updCore n fun c => { c with
      pool := c.pool.writeN (frameAt j (x.depth - 1) + 0x10) (toBytes 8 (keep v 63 2).toNat) }
    else s
  | 0x051 => ctx { x with vlog := x.vlog.set 1 (w1c (x.vlog.get 0 1) v) }
  | 0x053 => ctx { x with vlog := x.vlog.set 3 (keep v 31 0) }
  | _ =>
    if 0x120 ≤ r then s.updCore n fun c => { c with counters := countAgain old.counters c.counters r v }
    else if 0x100 ≤ r then ctx { x with counters := countAgain (old.ctx j).counters x.counters r v }
    else s

/-- R91. -/
def execCwr (a : SSrc) (n : BitVec 12) (s : State) : Host.Outcome State Fault Refusal :=
  slot s (do
    s.regAllowed n.toNat
    let v ← s.readS a
    pure (s.ctlWrite s.cur s.j n.toNat v))

/-! ## The array in a handler (R92) -/

/-- R92: the next bundle issues 432 cycles later when the state is written. -/
def execArrsave (s : State) : Host.Outcome State Fault Refusal :=
  slot s (do
    s.privileged 0x06
    let r := s.mycore.arrsave s.cur s.j
    let t := s.setCore s.cur r.1
    pure (if r.2 then t.memCycles s.cur s.j 431 else t))

/-- R92: the next bundle issues 432 cycles later when the state is reloaded. -/
def execArrrest (s : State) : Host.Outcome State Fault Refusal :=
  slot s (do
    s.privileged 0x07
    let r := s.mycore.arrrest s.j
    let t := s.setCore s.cur r.1
    pure (if r.2 then t.memCycles s.cur s.j 431 else t))

/-! ## Pool boundaries (R93, R228-R230) -/

/-- R93: the status of a setpool, 0 where it may start; the tile count tells a full ring from an empty one (R237). -/
def Core.setpoolStatus (c : Core) (a level : Nat) : Nat :=
  let b0 := fld a 7 0
  let b1 := fld a 15 8
  let b2 := fld a 23 16
  if a / 2 ^ 24 != 0 || !decide (b0 ≤ b1 ∧ b1 ≤ b2 ∧ b2 ≤ 192) then 1
  else if b0 != c.b0 && level == 0 then 2
  else if b0 < 32 then 3
  else if 192 - b2 < 8 then 4
  else if b2 != c.b2 && (c.ahd != c.atl || c.bhd != c.btl || !c.atiles.isEmpty || !c.btiles.isEmpty || c.fifoSegs != 0) then 5
  else if c.setpool.isSome then 6
  else 0

/-- The units of the pool that change region (R228), with their old and new region. -/
def Core.moving (c : Core) (p : Setpool) : List (Nat × Nat × Nat) :=
  (List.range Config.poolUnits).filterMap fun u =>
    let a := regionOf c.b0 c.b1 c.b2 u
    let b := regionOf p.b0 p.b1 p.b2 u
    if a == b then none else some (u, a, b)

/-- R229, R356: the ways that leave L1 are drained: their written bytes reach the home, where every later access finds
them. -/
def State.drainWays (s : State) (n : Nat) (p : Setpool) : State :=
  let mv := (s.core n).moving p
  let leaves := fun (l : L1Line) => mv.any fun m => m.1 == l.unit && m.2.1 == 2
  let s := ((s.core n).l1.filter leaves).foldl (fun s l => s.writeBack n l allSectors) s
  s.updCore n fun c => { c with l1 := c.l1.filter fun l => !leaves l }

/-- R93: status 0 starts the conversions; any other status completes at once. -/
def execSetpool (a : SSrc) (d : BitVec 6) (s : State) : Host.Outcome State Fault Refusal :=
  slot s (do
    let x ← s.readS a
    let v := x.toNat
    let st := s.mycore.setpoolStatus v s.me.level
    if st != 0 then pure (s.produceNow d.toNat .setpool st)
    else
      let p : Setpool := ⟨s.j, fld v 7 0, fld v 15 8, fld v 23 16⟩
      let t := (s.drainWays s.cur p).updMyCore fun c => { c with setpool := some p }
      pure (t.produce d.toNat .setpool none))

/-- R230: engine writes into the core's scratchpad that were checked before the setpool are outstanding, those into a barrier
and its bitmap among them; a collective's planes wait by themselves. -/
def State.engineWrites (s : State) (n : Nat) : Bool :=
  let here := fun (l : Option Local) => l.any fun l => l.space == 0 && l.loc == n
  ((s.core n).ctxs.any fun e => e.2.prods.any fun p => match p.work with
    | .tile o => !o.store && o.dest == .scratch
    | _ => false)
    || ((s.core n).unitOps.any fun u => u.2.isSome)
    || s.gathers.any (fun g => g.core == n || here (some ⟨g.tbSpace, g.tbLoc, g.tb⟩))
    || s.packets.any fun p => !p.late.contains n && pkKind p.image != 4 && (here (s.pkTb p.me p.vdev p.image) ||
      (match pkKind p.image with
        | 1 => cpLocal p.image true && here (localOf p.me (cpWord p.image true))
        | 2 => here (localOf p.me (numAt p.image 32 8))
        | 5 => here (localOf p.me (numAt p.image 24 8))
        | _ => false))

/-- R228, R229, R317: every unit that changes region is zero-filled, and the boundaries change; the packets that were checked
behind the setpool wait for it no longer (R230). -/
def State.endConversion (s : State) (n : Nat) (p : Setpool) : State :=
  let c := s.core n
  let mv := c.moving p
  let ring := p.b2 != c.b2
  let s := s.updCore n fun c => { c with
    ctxs := if ring then c.ctxs.mapVals fun _ x => { x with dprog := 0 } else c.ctxs,
    bslot := if ring then 0 else c.bslot,
    pool := mv.foldl (fun m u => m.zero (u.1 * Config.unitBytes) Config.unitBytes) c.pool,
    b0 := p.b0, b1 := p.b1, b2 := p.b2, setpool := none,
    ahd := if ring then 0 else c.ahd, atl := if ring then 0 else c.atl,
    bhd := if ring then 0 else c.bhd, btl := if ring then 0 else c.btl }
  let s := { s with packets := s.packets.map fun q => { q with late := q.late.filter (· != n) } }
  match (s.ctx n p.ctx).prods.findIdx? (fun q => q.work == .setpool) with
  | none => s
  | some k =>
    match (s.ctx n p.ctx).prods[k]? with
    | none => s
    | some q => s.finish n p.ctx k q (.value 0)

/-- R228, R230: the conversions end, once the engine writes into units that leave the scratchpad, or whose scratchpad address
changes with B0, are done. -/
def execSetpoolConversion (core : Nat) (s : State) : Host.Outcome State Fault Refusal :=
  match (s.core core).setpool with
  | none => .next s
  | some p =>
    let away := p.b0 != (s.core core).b0 || ((s.core core).moving p).any fun m => m.2.1 == 1
    if away && s.engineWrites core then .next s else .next (s.endConversion core p)

/-! ## Translations and caches (R94, R95) -/

/-- R94. -/
def execTlbinv (a : SSrc) (k : TlbKind) (s : State) : Host.Outcome State Fault Refusal :=
  slot s (do
    s.privileged 0x09
    let x ← s.readS a
    pure (s.tlbDrop (match k with
      | .all => fun _ => true
      | .page => covers (s.vdevOf s.cur) x.toNat
      | .vdev => fun e => e.vdev == x.toNat % 64)))

/-- R95, R226, R264: the lines of the issuing core's L1 that an operation covers, none where its address does not translate,
and the state after its walk. -/
def State.cacheLines (s : State) (va : Nat) (k : CacheKind) : State × (L1Line → Bool) :=
  match k with
  | .l1 => (s, fun _ => true)
  | _ =>
    match (s.mycore.part va).1, s.lookup (s.tlbs s.cur) (s.vdevOf s.cur) va with
    | .mem, some t =>
      let lo := t.pa / t.size * t.size
      (s.fillTlb s.cur va, fun l =>
        if k == .line then l.pa == t.pa / 512 else decide (lo ≤ l.pa * 512 ∧ l.pa * 512 < lo + t.size))
    | .mem, none => (s.fillTlb s.cur va, fun _ => false)
    | _, _ => (s, fun _ => false)

/-- R268: the address that an operation on lines names lies in a page that migrates. -/
def State.cacheWaits (s : State) (va : Nat) (k : CacheKind) : Bool :=
  k != .l1 && (s.mycore.part va).1 == .mem && s.moving (s.tlbs s.cur) (s.vdevOf s.cur) va 1

/-- R95. -/
def execCwb (a : SSrc) (k : CacheKind) (s : State) : Host.Outcome State Fault Refusal :=
  slot s (do
    let x ← s.readS a
    need (!s.cacheWaits x.toNat k) (.stall .mem)
    let r := s.cacheLines x.toNat k
    pure (r.1.l1WriteBack s.cur r.2))

/-- R95. -/
def execCinv (a : SSrc) (k : CacheKind) (s : State) : Host.Outcome State Fault Refusal :=
  slot s (do
    let x ← s.readS a
    need (!s.cacheWaits x.toNat k) (.stall .mem)
    let r := s.cacheLines x.toNat k
    let t := r.1.l1WriteBack s.cur r.2
    pure (t.updMyCore fun c => { c with l1 := c.l1.filter fun l => !r.2 l }))

/-- R96. -/
def execWfe (s : State) : Host.Outcome State Fault Refusal :=
  .next (s.updMe fun x => if x.ev then { x with ev := false } else { x with waiting := true })

end Sys2Proof.Machine
end

