-- ==== Sys2Proof/Machine/Issue.lean ====
section
/-! DEFINITION. Machine/Issue.lean: what a bundle reads, its fetch, the checks made before any of its slots takes effect,
and the landings it performs (R35-R56, R379-R381, R4, R157). -/

namespace Sys2Proof

/-- R50: the port and register that a V source names. -/
def VSrc.port : VSrc → List (Nat × Nat)
  | .reg n p _ => [(p.toNat, n.toNat)]
  | .tap _ _ => []

/-- R47: the implied port of a V short source, and its register. -/
def VShort.port (p : Nat) : VShort → List (Nat × Nat)
  | .reg n _ => [(p, n.toNat)]
  | .tap _ _ => []

/-- The S sources of an instruction in field order, a destination that is read among them (R44, R56, R159). -/
def Instr.reads : Instr → List SSrc
  | .bundleFetch _ => []
  | .fixedLatencyLanding _ _ => []
  | .nopS => []
  | .add _ a b => [a, b]
  | .sub _ a b => [a, b]
  | .addi _ a _ => [a]
  | .mul _ a b => [a, b]
  | .mulh _ a b => [a, b]
  | .mulhu _ a b => [a, b]
  | .div _ a b => [a, b]
  | .divu _ a b => [a, b]
  | .rem _ a b => [a, b]
  | .remu _ a b => [a, b]
  | .andS _ a b => [a, b]
  | .orS _ a b => [a, b]
  | .xorS _ a b => [a, b]
  | .andn _ a b => [a, b]
  | .andi _ a _ => [a]
  | .ori _ a _ => [a]
  | .xori _ a _ => [a]
  | .shl _ a b => [a, b]
  | .shr _ a b => [a, b]
  | .sar _ a b => [a, b]
  | .shli _ a _ => [a]
  | .shri _ a _ => [a]
  | .sari _ a _ => [a]
  | .clz _ a => [a]
  | .ctz _ a => [a]
  | .popc _ a => [a]
  | .extr _ a b => [a, b]
  | .extru _ a b => [a, b]
  | .ins d a b => [.reg d false, a, b]
  | .minS _ a b => [a, b]
  | .maxS _ a b => [a, b]
  | .minu _ a b => [a, b]
  | .maxu _ a b => [a, b]
  | .movi _ _ => []
  | .movhi d _ => [.reg d false]
  | .selP0P3 _ a b _ => [a, b]
  | .selP4P7 _ a b _ => [a, b]
  | .lea _ a b _ => [a, b]
  | .cmp _ _ a b => [a, b]
  | .cmpi _ _ a _ => [a]
  | .pand _ _ _ => []
  | .por _ _ _ => []
  | .pxor _ _ _ => []
  | .pnot _ _ => []
  | .sfadd _ a b => [a, b]
  | .sfmul _ a b => [a, b]
  | .sfma d a b => [.reg d false, a, b]
  | .sfcvt _ a _ _ _ => [a]
  | .nopV => []
  | .vaddF32 _ _ _ => []
  | .vsubF32 _ _ _ => []
  | .vmulF32 _ _ _ => []
  | .vfmaF32 _ _ _ => []
  | .vfmsF32 _ _ _ => []
  | .vmaxF32 _ _ _ => []
  | .vminF32 _ _ _ => []
  | .vabsF32 _ _ => []
  | .vnegF32 _ _ => []
  | .vaddBf16 _ _ _ => []
  | .vmulBf16 _ _ _ => []
  | .vfmaBf16 _ _ _ => []
  | .vmaxBf16 _ _ _ => []
  | .vminBf16 _ _ _ => []
  | .vaddF16 _ _ _ => []
  | .vmulF16 _ _ _ => []
  | .vfmaF16 _ _ _ => []
  | .vmaxF16 _ _ _ => []
  | .vminF16 _ _ _ => []
  | .vaddI32 _ _ _ => []
  | .vsubI32 _ _ _ => []
  | .vmulI32 _ _ _ => []
  | .vmaxI32 _ _ _ => []
  | .vminI32 _ _ _ => []
  | .vandI32 _ _ _ => []
  | .vorI32 _ _ _ => []
  | .vxorI32 _ _ _ => []
  | .vandnI32 _ _ _ => []
  | .vshlI32 _ _ _ => []
  | .vshrI32 _ _ _ => []
  | .vsarI32 _ _ _ => []
  | .vcmpEqF32 _ _ _ => []
  | .vcmpLtF32 _ _ _ => []
  | .vcmpLeF32 _ _ _ => []
  | .vcmpEqI32 _ _ _ => []
  | .vcmpLtI32 _ _ _ => []
  | .vcmpLeI32 _ _ _ => []
  | .vsel _ _ _ => []
  | .vbcast _ a => [a]
  | .vmovs _ a _ => [a]
  | .vidx _ a => [a]
  | .vcvt _ _ _ _ _ => []
  | .vrcpF32 _ _ => []
  | .vrsqF32 _ _ => []
  | .vexp2F32 _ _ => []
  | .vlog2F32 _ _ => []
  | .vtanhF32 _ _ => []
  | .vsigF32 _ _ => []
  | .vredAdd _ _ _ => []
  | .vredMax _ _ _ => []
  | .vredMin _ _ _ => []
  | .vscanAdd _ _ _ => []
  | .vshufLo _ _ _ _ => []
  | .vshufHi _ _ _ _ => []
  | .nopM => []
  | .mpush _ => []
  | .mswap => []
  | .macc _ _ _ => []
  | .maccG _ _ _ => []
  | .mdrain _ _ _ _ _ _ => []
  | .mzero _ _ _ => []
  | .mcfg a => [a]
  | .mrun _ a _ => [a]
  | .playedBeat _ => []
  | .nopL => []
  | .lds _ a _ _ => [a]
  | .ldsS _ a _ _ => [a]
  | .sts a b _ _ => [a, b]
  | .ldv _ a _ => [a]
  | .stv _ a _ => [a]
  | .ld _ a _ _ => [a]
  | .ldS _ a _ _ => [a]
  | .lda _ a _ _ => [a]
  | .st a b _ _ => [a, b]
  | .sta a b _ _ => [a, b]
  | .loadCompletion _ _ _ => []
  | .tld _ a b _ => [a, b]
  | .tldRingClaim _ _ => []
  | .tileLoadCompletion _ _ _ => []
  | .tst a b _ => [a, b]
  | .tileStoreCompletion _ _ _ => []
  | .ldsc a _ => [a]
  | .amoAdd _ _ d a _ => [.reg d false, a]
  | .amoAnd _ _ d a _ => [.reg d false, a]
  | .amoOr _ _ d a _ => [.reg d false, a]
  | .amoXor _ _ d a _ => [.reg d false, a]
  | .amoMin _ _ d a _ => [.reg d false, a]
  | .amoMax _ _ d a _ => [.reg d false, a]
  | .amoXchg _ _ d a _ => [.reg d false, a]
  | .amoCas _ _ d a _ => [.reg d false, .reg (d + 1) false, a]
  | .amoReply _ _ _ => []
  | .phase a _ _ => [a]
  | .phaseAcquireAtHome _ _ => []
  | .phaseReleaseRegistration _ _ => []
  | .acq _ => []
  | .rel _ => []
  | .fence _ => []
  | .nopC => []
  | .cpost a b _ => [a, b]
  | .cpostCompletion _ _ _ => []
  | .gather _ a b => [a, b]
  | .scatter _ a b => [a, b]
  | .coll a b _ => [a, b]
  | .tbinit a b => [a, b]
  | .tbarr a => [a]
  | .tbexp a b => [a, b]
  | .tbwait a b _ => [a, b]
  | .parkApply _ => []
  | .barrierUpdateArrival _ => []
  | .plwait a _ _ => [a]
  | .plread a _ => [a]
  | .plcancel a => [a]
  | .nxt a => [a]
  | .pmovS _ a => [a]
  | .pmovV _ _ => []
  | .pget _ _ => []
  | .lddt _ a _ => [a]
  | .lddtCompletion _ _ _ => []
  | .cbld _ a => [a]
  | .cbst _ a => [a]
  | .cbget _ _ => []
  | .cbput _ _ => []
  | .vpld _ a => [a]
  | .mbld _ a _ => [a]
  | .cbuDedup _ _ => []
  | .cbuRemap _ _ => []
  | .cbuPair _ _ => []
  | .cbuExpand _ _ => []
  | .rcuRun _ _ => []
  | .htbBuild _ _ => []
  | .nopB => []
  | .pbr _ a => [a]
  | .pbri _ _ => []
  | .br _ _ _ => []
  | .call _ _ _ => []
  | .ret _ _ => []
  | .pmark => []
  | .suspend => []
  | .endB => []
  | .nopX => []
  | .trap _ => []
  | .reti => []
  | .uret => []
  | .crd _ _ => []
  | .cwr a _ => [a]
  | .arrsave => []
  | .arrrest => []
  | .setpool a _ => [a]
  | .setpoolConversion _ => []
  | .tlbinv a _ => [a]
  | .cwb a _ => [a]
  | .cinv a _ => [a]
  | .wfe => []
  | .supervisorTrapEntry _ _ => []
  | .userInterruptEntry _ _ => []
  | .switchOnStall _ => []
  | .switchQuantumExpiry _ => []
  | .preemptionRequest _ => []
  | .heavyPreemption _ _ => []
  | .itemKill _ _ => []
  | .timerExpiry _ _ => []
  | .noticeWrite _ _ => []
  | .cpreqWrite _ _ => []
  | .launchTake _ _ => []
  | .recordCreate _ => []
  | .recordPickup _ => []
  | .recordAging _ => []
  | .recordSteal _ => []
  | .dispenserBatchRequest _ _ _ => []
  | .dispenserBatchReturn _ _ => []
  | .dispenserExhaustion _ _ => []
  | .packetTake _ _ => []
  | .packetCompletion _ => []
  | .transformCompletion _ => []
  | .gatherRow _ _ => []
  | .scatterRow _ _ => []
  | .collectiveAnnounce _ => []
  | .planeLanding _ => []
  | .relayForward _ => []
  | .cancelUpstream _ => []
  | .truncation _ => []
  | .errorNotice _ => []
  | .decoderSegmentDecode _ => []
  | .pageWalk _ _ => []
  | .pagePromotion _ => []
  | .pageDemotion _ => []
  | .migrationCopy _ => []
  | .epochHalving _ => []
  | .allocatingWriteResume _ => []
  | .extentReleaseRequest _ _ => []
  | .forcedExtentRemoval _ _ => []
  | .prefetchRequestServe _ => []
  | .chunkAddWrite _ _ => []
  | .chunkRsvWrite _ _ => []
  | .frameAddWrite _ _ => []
  | .hwbaseWrite _ _ => []
  | .configRegisterWrite _ _ _ _ => []
  | .hostMemoryWrite _ _ _ => []
  | .hostMemoryRead _ _ _ => []
  | .hostAtomicopFetchadd _ _ _ => []
  | .hostAtomicopSwap _ _ _ => []
  | .hostAtomicopCas _ _ _ _ => []
  | .causewayAccess _ _ _ _ _ => []
  | .packageReset => []
  | .virtualDeviceReset _ => []
  | .clusterReassignment _ _ => []
  | .attestationRequest _ _ => []
  | .readTelemetry => []
  | .polrumAttest _ => []
  | .writeImageSlot _ _ => []
  | .raiseFloor _ => []
  | .polrumPackageReset => []
  | .readErrorLog _ => []
  | .thermalStep _ _ => []
  | .thermalTrip _ _ => []
  | .scaleQueueFill _ => []
  | .writeBackArrival _ _ => []
  | .systemCoreStore _ _ => []
  | .extentGrant _ _ => []

/-- R50: the read ports an instruction uses, each with its register. -/
def Instr.vports : Instr → List (Nat × Nat)
  | .bundleFetch _ => []
  | .fixedLatencyLanding _ _ => []
  | .nopS => []
  | .add _ _ _ => []
  | .sub _ _ _ => []
  | .addi _ _ _ => []
  | .mul _ _ _ => []
  | .mulh _ _ _ => []
  | .mulhu _ _ _ => []
  | .div _ _ _ => []
  | .divu _ _ _ => []
  | .rem _ _ _ => []
  | .remu _ _ _ => []
  | .andS _ _ _ => []
  | .orS _ _ _ => []
  | .xorS _ _ _ => []
  | .andn _ _ _ => []
  | .andi _ _ _ => []
  | .ori _ _ _ => []
  | .xori _ _ _ => []
  | .shl _ _ _ => []
  | .shr _ _ _ => []
  | .sar _ _ _ => []
  | .shli _ _ _ => []
  | .shri _ _ _ => []
  | .sari _ _ _ => []
  | .clz _ _ => []
  | .ctz _ _ => []
  | .popc _ _ => []
  | .extr _ _ _ => []
  | .extru _ _ _ => []
  | .ins _ _ _ => []
  | .minS _ _ _ => []
  | .maxS _ _ _ => []
  | .minu _ _ _ => []
  | .maxu _ _ _ => []
  | .movi _ _ => []
  | .movhi _ _ => []
  | .selP0P3 _ _ _ _ => []
  | .selP4P7 _ _ _ _ => []
  | .lea _ _ _ _ => []
  | .cmp _ _ _ _ => []
  | .cmpi _ _ _ _ => []
  | .pand _ _ _ => []
  | .por _ _ _ => []
  | .pxor _ _ _ => []
  | .pnot _ _ => []
  | .sfadd _ _ _ => []
  | .sfmul _ _ _ => []
  | .sfma _ _ _ => []
  | .sfcvt _ _ _ _ _ => []
  | .nopV => []
  | .vaddF32 _ a b => a.port ++ b.port
  | .vsubF32 _ a b => a.port ++ b.port
  | .vmulF32 _ a b => a.port ++ b.port
  | .vfmaF32 d a b => [(3, d.toNat)] ++ a.port ++ b.port
  | .vfmsF32 d a b => [(3, d.toNat)] ++ a.port ++ b.port
  | .vmaxF32 _ a b => a.port ++ b.port
  | .vminF32 _ a b => a.port ++ b.port
  | .vabsF32 _ a => a.port
  | .vnegF32 _ a => a.port
  | .vaddBf16 _ a b => a.port ++ b.port
  | .vmulBf16 _ a b => a.port ++ b.port
  | .vfmaBf16 d a b => [(3, d.toNat)] ++ a.port ++ b.port
  | .vmaxBf16 _ a b => a.port ++ b.port
  | .vminBf16 _ a b => a.port ++ b.port
  | .vaddF16 _ a b => a.port ++ b.port
  | .vmulF16 _ a b => a.port ++ b.port
  | .vfmaF16 d a b => [(3, d.toNat)] ++ a.port ++ b.port
  | .vmaxF16 _ a b => a.port ++ b.port
  | .vminF16 _ a b => a.port ++ b.port
  | .vaddI32 _ a b => a.port ++ b.port
  | .vsubI32 _ a b => a.port ++ b.port
  | .vmulI32 _ a b => a.port ++ b.port
  | .vmaxI32 _ a b => a.port ++ b.port
  | .vminI32 _ a b => a.port ++ b.port
  | .vandI32 _ a b => a.port ++ b.port
  | .vorI32 _ a b => a.port ++ b.port
  | .vxorI32 _ a b => a.port ++ b.port
  | .vandnI32 _ a b => a.port ++ b.port
  | .vshlI32 _ a b => a.port ++ b.port
  | .vshrI32 _ a b => a.port ++ b.port
  | .vsarI32 _ a b => a.port ++ b.port
  | .vcmpEqF32 _ a b => a.port ++ b.port
  | .vcmpLtF32 _ a b => a.port ++ b.port
  | .vcmpLeF32 _ a b => a.port ++ b.port
  | .vcmpEqI32 _ a b => a.port ++ b.port
  | .vcmpLtI32 _ a b => a.port ++ b.port
  | .vcmpLeI32 _ a b => a.port ++ b.port
  | .vsel d a b => [(3, d.toNat)] ++ a.port ++ b.port
  | .vbcast _ _ => []
  | .vmovs d _ _ => [(3, d.toNat)]
  | .vidx _ _ => []
  | .vcvt _ a _ _ _ => a.port
  | .vrcpF32 _ a => a.port
  | .vrsqF32 _ a => a.port
  | .vexp2F32 _ a => a.port
  | .vlog2F32 _ a => a.port
  | .vtanhF32 _ a => a.port
  | .vsigF32 _ a => a.port
  | .vredAdd _ a _ => a.port
  | .vredMax _ a _ => a.port
  | .vredMin _ a _ => a.port
  | .vscanAdd _ a _ => a.port
  | .vshufLo _ _ a b => a.port 0 ++ b.port 1
  | .vshufHi _ _ a b => a.port 0 ++ b.port 1
  | .nopM => []
  | .mpush _ => []
  | .mswap => []
  | .macc _ _ _ => []
  | .maccG _ _ a => a.port
  | .mdrain _ _ _ _ _ _ => []
  | .mzero _ _ _ => []
  | .mcfg _ => []
  | .mrun _ _ _ => []
  | .playedBeat _ => []
  | .nopL => []
  | .lds _ _ _ _ => []
  | .ldsS _ _ _ _ => []
  | .sts _ _ _ _ => []
  | .ldv _ _ _ => []
  | .stv v _ _ => v.port
  | .ld _ _ _ _ => []
  | .ldS _ _ _ _ => []
  | .lda _ _ _ _ => []
  | .st _ _ _ _ => []
  | .sta _ _ _ _ => []
  | .loadCompletion _ _ _ => []
  | .tld _ _ _ _ => []
  | .tldRingClaim _ _ => []
  | .tileLoadCompletion _ _ _ => []
  | .tst _ _ _ => []
  | .tileStoreCompletion _ _ _ => []
  | .ldsc _ _ => []
  | .amoAdd _ _ _ _ _ => []
  | .amoAnd _ _ _ _ _ => []
  | .amoOr _ _ _ _ _ => []
  | .amoXor _ _ _ _ _ => []
  | .amoMin _ _ _ _ _ => []
  | .amoMax _ _ _ _ _ => []
  | .amoXchg _ _ _ _ _ => []
  | .amoCas _ _ _ _ _ => []
  | .amoReply _ _ _ => []
  | .phase _ _ _ => []
  | .phaseAcquireAtHome _ _ => []
  | .phaseReleaseRegistration _ _ => []
  | .acq _ => []
  | .rel _ => []
  | .fence _ => []
  | .nopC => []
  | .cpost _ _ _ => []
  | .cpostCompletion _ _ _ => []
  | .gather v _ _ => v.port
  | .scatter v _ _ => v.port
  | .coll _ _ _ => []
  | .tbinit _ _ => []
  | .tbarr _ => []
  | .tbexp _ _ => []
  | .tbwait _ _ _ => []
  | .parkApply _ => []
  | .barrierUpdateArrival _ => []
  | .plwait _ _ _ => []
  | .plread _ _ => []
  | .plcancel _ => []
  | .nxt _ => []
  | .pmovS _ _ => []
  | .pmovV _ v => v.port
  | .pget _ _ => []
  | .lddt _ _ _ => []
  | .lddtCompletion _ _ _ => []
  | .cbld _ _ => []
  | .cbst _ _ => []
  | .cbget _ _ => []
  | .cbput _ v => v.port
  | .vpld _ _ => []
  | .mbld _ _ _ => []
  | .cbuDedup _ _ => []
  | .cbuRemap _ _ => []
  | .cbuPair _ _ => []
  | .cbuExpand _ _ => []
  | .rcuRun _ _ => []
  | .htbBuild _ _ => []
  | .nopB => []
  | .pbr _ _ => []
  | .pbri _ _ => []
  | .br _ _ _ => []
  | .call _ _ _ => []
  | .ret _ _ => []
  | .pmark => []
  | .suspend => []
  | .endB => []
  | .nopX => []
  | .trap _ => []
  | .reti => []
  | .uret => []
  | .crd _ _ => []
  | .cwr _ _ => []
  | .arrsave => []
  | .arrrest => []
  | .setpool _ _ => []
  | .setpoolConversion _ => []
  | .tlbinv _ _ => []
  | .cwb _ _ => []
  | .cinv _ _ => []
  | .wfe => []
  | .supervisorTrapEntry _ _ => []
  | .userInterruptEntry _ _ => []
  | .switchOnStall _ => []
  | .switchQuantumExpiry _ => []
  | .preemptionRequest _ => []
  | .heavyPreemption _ _ => []
  | .itemKill _ _ => []
  | .timerExpiry _ _ => []
  | .noticeWrite _ _ => []
  | .cpreqWrite _ _ => []
  | .launchTake _ _ => []
  | .recordCreate _ => []
  | .recordPickup _ => []
  | .recordAging _ => []
  | .recordSteal _ => []
  | .dispenserBatchRequest _ _ _ => []
  | .dispenserBatchReturn _ _ => []
  | .dispenserExhaustion _ _ => []
  | .packetTake _ _ => []
  | .packetCompletion _ => []
  | .transformCompletion _ => []
  | .gatherRow _ _ => []
  | .scatterRow _ _ => []
  | .collectiveAnnounce _ => []
  | .planeLanding _ => []
  | .relayForward _ => []
  | .cancelUpstream _ => []
  | .truncation _ => []
  | .errorNotice _ => []
  | .decoderSegmentDecode _ => []
  | .pageWalk _ _ => []
  | .pagePromotion _ => []
  | .pageDemotion _ => []
  | .migrationCopy _ => []
  | .epochHalving _ => []
  | .allocatingWriteResume _ => []
  | .extentReleaseRequest _ _ => []
  | .forcedExtentRemoval _ _ => []
  | .prefetchRequestServe _ => []
  | .chunkAddWrite _ _ => []
  | .chunkRsvWrite _ _ => []
  | .frameAddWrite _ _ => []
  | .hwbaseWrite _ _ => []
  | .configRegisterWrite _ _ _ _ => []
  | .hostMemoryWrite _ _ _ => []
  | .hostMemoryRead _ _ _ => []
  | .hostAtomicopFetchadd _ _ _ => []
  | .hostAtomicopSwap _ _ _ => []
  | .hostAtomicopCas _ _ _ _ => []
  | .causewayAccess _ _ _ _ _ => []
  | .packageReset => []
  | .virtualDeviceReset _ => []
  | .clusterReassignment _ _ => []
  | .attestationRequest _ _ => []
  | .readTelemetry => []
  | .polrumAttest _ => []
  | .writeImageSlot _ _ => []
  | .raiseFloor _ => []
  | .polrumPackageReset => []
  | .readErrorLog _ => []
  | .thermalStep _ _ => []
  | .thermalTrip _ _ => []
  | .scaleQueueFill _ => []
  | .writeBackArrival _ _ => []
  | .systemCoreStore _ _ => []
  | .extentGrant _ _ => []

end Sys2Proof

namespace Sys2Proof.Machine

open Sys2Proof

/-! ## Fetch (R38, R39, R82) -/

/-- One slot word fetched at the context's level from device memory; an address inside the local window is not translated
and gets an error response (R225; log 65); cause 0 is the wait for a migrating page (R268). -/
def State.fetchWord (s : State) (n va : Nat) (user : Bool) : State × Except Nat Nat :=
  let v := s.vdevOf n
  if ((s.core n).part va).1 != .mem then (s, .error 3)
  else if s.moving (s.tlbs n) v va 4 then (s, .error 0)
  else match s.translate (s.tlbs n) v va .x user with
  | .error c => (s.fillTlb n va, .error c)
  | .ok t =>
    let r := (s.fillTlb n va).homeRead t.pa 4 v (fld t.pte 8 7)
    match r.2 with
    | .error c => (r.1, .error c)
    | .ok bs => (r.1, .ok (ofBytes bs))

/-- R38: words up to the one with STOP, or eight; or the cause and address of the word that cannot be fetched. -/
def State.fetchWords (s : State) (n : Nat) (user : Bool) : Nat → Nat → State × Except (Nat × Nat) (List Nat)
  | 0, _ => (s, .ok [])
  | k + 1, va =>
    let r := s.fetchWord n va user
    match r.2 with
    | .error c => (r.1, .error (c, va))
    | .ok w =>
      if 2 ^ 31 ≤ w then (r.1, .ok [w])
      else
        let q := r.1.fetchWords n user k (va + 4)
        match q.2 with
        | .error e => (q.1, .error e)
        | .ok ws => (q.1, .ok (w :: ws))

/-! ## The checks of a bundle (R40, R41) -/

/-- R37: the slots a class has in a bundle. -/
def classLimit (c : Nat) : Nat := if c < 2 then 2 else 1

/-- The first index below n that a predicate picks. -/
def firstIdx (n : Nat) (p : Nat → Bool) : Option Nat := (List.range n).find? p

/-- The decoded slots of a bundle, or the reason of the first word that is refused for it. -/
def decodeAll : List Nat → List (Except DecodeError Instr)
  | [] => []
  | w :: t => decodeWord w :: decodeAll t

/-- Word i is refused for reason r. -/
def refusedFor (ds : List (Except DecodeError Instr)) (r i : Nat) : Bool :=
  match ds[i]? with
  | some (.error e) => e.reason == r
  | _ => false

/-- The instructions of words that all decode. -/
def decoded : List (Except DecodeError Instr) → List Instr
  | [] => []
  | .ok i :: t => i :: decoded t
  | .error _ :: t => decoded t

/-- R50: two fields name one port and different registers. -/
def portClash (ps : List (Nat × Nat)) : Bool := ps.any fun a => ps.any fun b => a.1 == b.1 && a.2 != b.2

/-- R40, R41: the slots of a legal bundle, or the slot and reason of an illegal one; `playing` says that a play of the
context is open, whichever code of it issued the mrun. -/
def checkBundle (ws : List Nat) (playing : Bool) : Except (Nat × Nat) (List Instr) :=
  let n := ws.length
  let cls := fun (i : Nat) => fld (nth 0 ws i) 30 28
  let ds := decodeAll ws
  let is_ := decoded ds
  let before := fun (i : Nat) => ((List.range i).filter fun k => cls k == cls i).length
  if n < 4 then .error (15, 1)
  else if ws.getLast?.any (fun w => decide (w < 2 ^ 31)) then .error (15, 2)
  else match firstIdx n (fun i => cls i == 7) with
  | some i => .error (i, 3)
  | none => match firstIdx n (fun i => 0 < i && cls i < cls (i - 1)) with
  | some i => .error (i, 4)
  | none => match firstIdx n (fun i => classLimit (cls i) ≤ before i) with
  | some i => .error (i, 5)
  | none => match firstIdx n (refusedFor ds 6) with
  | some i => .error (i, 6)
  | none => match firstIdx n (refusedFor ds 7) with
  | some i => .error (i, 7)
  | none =>
    if portClash (is_.flatMap Instr.vports) then .error (15, 8)
    else match firstIdx n (fun i => playing && cls i == 2) with
    | some i => .error (i, 9)
    | none => .ok is_

/-- R38-R41: the current context's next bundle fetched and checked: its slots wait to be issued, or its fault is
taken, with the violation logged (R399). -/
def State.fetch (s : State) : State :=
  let x := s.me
  let pc := x.pc
  let s0 := { s with issue := { Issue.none with addr := pc } }
  if pc % 4 != 0 then s0.void (faultAt 0x03 0 (Config.misalignedCause % 8) pc)
  else
    let r := s0.fetchWords s.cur (x.level == 0) 8 pc
    match r.2 with
    | .error (0, _) => r.1.void .fetch
    | .error e =>
      let v := faultAt 0x03 0 e.1 pc
      (match r.1.delayed v with
        | .trap _ => r.1.violateCause s.cur s.j e.2 e.1
        | _ => r.1).void v
    | .ok ws =>
      match checkBundle ws (s.mycore.play.any fun (p : Play) => p.ctx == s.j) with
      | .error e => r.1.void (fault 0x01 (e.1 + 256 * e.2))
      | .ok is_ => { r.1 with issue := { r.1.issue with next := pc + 4 * ws.length, slots := is_ } }

/-- R38: core's next bundle is fetched and checked. -/
def execBundleFetch (core : Nat) (s : State) : Host.Outcome State Fault Refusal :=
  let t := { s with cur := core }
  .next (if t.me.held.isNone then s else t.fetch)

/-- R53: the results of a context that have reached their landing tick. -/
def execFixedLatencyLanding (core ctx : Nat) (s : State) : Host.Outcome State Fault Refusal :=
  .next (s.updCore core fun c => c.landDue ctx)

/-- R125: the core's decoder decodes one segment. -/
def execDecoderSegmentDecode (core : Nat) (s : State) : Host.Outcome State Fault Refusal :=
  .next (s.updCore core Core.decodeNext)

/-! ## Checks made before a bundle's slots (R4, R157, R381) -/

/-- R4, R66: TINFO of a slot that only the supervisor level may issue. -/
def privInfo : Instr → Option Nat
  | .crd _ n => if supervisorReg n.toNat then some n.toNat else none
  | .cwr _ n => if supervisorReg n.toNat then some n.toNat else none
  | .reti => some 0x02
  | .arrsave => some 0x06
  | .arrrest => some 0x07
  | .tlbinv _ _ => some 0x09
  | _ => none

/-- R35: the slot schedules a landing when it issues. -/
def schedules : Instr → Bool
  | .nopS | .nopV | .nopM | .mcfg _ => false
  | .lds _ _ _ _ | .ldsS _ _ _ _ | .ldv _ _ _ | .nxt _ | .cbget _ _ | .crd _ _ | .pbr _ _ | .pbri _ _ => true
  | i => match i.opcode with
    | some (c, _) => decide (c < 3)
    | none => false

/-- R157: a slot of an ordering bundle; a pmark is one where it would be honoured. -/
def orders (honoured : Bool) : Instr → Bool
  | .sta _ _ _ _ | .phase _ _ _ | .acq _ | .rel _ | .fence _ | .tbarr _ | .cpost _ _ _ | .coll _ _ _
  | .scatter _ _ _ | .gather _ _ _ | .tst _ _ _ | .suspend | .endB => true
  | .amoAdd _ _ _ _ _ | .amoAnd _ _ _ _ _ | .amoOr _ _ _ _ _ | .amoXor _ _ _ _ _ | .amoMin _ _ _ _ _
  | .amoMax _ _ _ _ _ | .amoXchg _ _ _ _ _ | .amoCas _ _ _ _ _ => true
  | .pmark => honoured
  | _ => false

/-- R84: a pmark of these slots would be honoured. -/
def State.honours (s : State) (is_ : List Instr) : Bool :=
  let x := s.me
  x.preq && x.level == 0 && !x.uih && s.mycore.settled s.j && !is_.any schedules

/-- R381: the faults of a bundle that come before those its execution finds. -/
def State.precheck (s : State) (is_ : List Instr) : Except Void Unit := do
  match is_.findSome? privInfo with
  | some k => need (s.rd.level == 1) (fault 0x02 k)
  | none => pure ()
  if is_.any (orders (s.honours is_)) then s.ordering else pure ()
  let _ ← s.readAll (is_.flatMap Instr.reads)
  pure ()

end Sys2Proof.Machine
end

