-- ==== Sys2Proof/Machine/Matrix.lean ====
section
/-! DEFINITION. Machine/Matrix.lean: the M class (R115-R138). -/

namespace Sys2Proof.Machine

open Sys2Proof

/-! ## Ownership (R116, R92) -/

/-- R379: the owner as the array-busy fault names it. -/
def Core.ownerNum (c : Core) : Nat := c.owner.getD 0xFFFF

/-- R116, R92: the array is the issuing context's; a beat issued while nothing owns it takes it. -/
def State.own (s : State) : Except Void State :=
  let c := s.mycore
  let me := ctxNum s.cur s.j
  if s.me.level == 1 then
    if c.handlerOwns s.j then .ok s else .error (fault 0x06 c.ownerNum)
  else match c.owner with
    | none => .ok (s.updMyCore fun c =>
        { (if c.decodes == some s.j then c else c.clearFifo) with owner := some me })
    | some o => if o == me then .ok s else .error (fault 0x06 o)

/-- A beat: ownership, its effect, and its count (R116, R321). -/
def State.beat (s : State) (f : State → Except Void State) : Except Void State := do
  let s ← s.own
  let t ← f s
  pure { t.updMe (fun x => x.count 0x10F 1) with issue := { t.issue with beat := true } }

/-! ## MCTL fields (R118) -/

/-- Element format codes 0 to 4 of MCTL. -/
def fmtOf : Nat → CvtFmt
  | 1 => .fp16 | 2 => .bf16 | 3 => .e4m3 | 4 => .e5m2 | _ => .fp32

def Ctx.fmt (x : Ctx) (b : Bool) : Nat := if b then bits x.mctl 7 4 else bits x.mctl 3 0
def Ctx.planes (x : Ctx) (b : Bool) : Nat := if b then bits x.mctl 39 36 else bits x.mctl 35 32
def Ctx.idxW (x : Ctx) (b : Bool) : Nat := (if b then bits x.mctl 27 26 else bits x.mctl 25 24) + 1
def Ctx.cbNum (x : Ctx) (b : Bool) : Nat := if b then bits x.mctl 23 20 else bits x.mctl 19 16

/-- R119: the first failing check of a value for MCTL. -/
def mcfgCheck (v : Word) : Option Nat :=
  if bits v 63 43 != 0 || bit v 28 || bits v 15 8 != 0 then some 1
  else if 7 ≤ bits v 3 0 || 7 ≤ bits v 7 4 then some 2
  else if bits v 35 32 < 2 || 8 < bits v 35 32 || bits v 39 36 < 2 || 8 < bits v 39 36 then some 3
  else if bit v 31 && bits v 7 4 != 6 then some 4
  else none

/-! ## The decode chain (R120, R122) -/

/-- Bit j of a plane row of 16 bytes. -/
def planeBit (bs : List Byte) (j : Nat) : Nat := (nth 0 bs (j / 8)).toNat / 2 ^ (j % 8) % 2

/-- 128 values of planes, most significant plane first. -/
def fromPlanes (rows : List (List Byte)) : List Nat :=
  tab 128 fun j => rows.foldl (fun a r => 2 * a + planeBit r j) 0

/-- 128 elements of n bytes. -/
def fromBytes (bs : List Byte) (n : Nat) : List Nat := tab 128 fun j => ofBytes ((bs.drop (n * j)).take n)

/-- R120: the bytes of one element of a floating format. -/
def fmtBytes (f : Nat) : Nat := widthOf (fmtOf f) / 8

/-- R120: the encodings of row r of a tile; `rd` reads its bytes, w is the index width of a coded one. -/
def rowRaw (f w : Nat) (rd : Nat → Nat → List Byte) (r : Nat) : List Nat :=
  if f < 5 then fromBytes (rd (128 * fmtBytes f * r) (128 * fmtBytes f)) (fmtBytes f)
  else fromPlanes (tab (if f == 5 then 8 else w) fun k => rd (2048 * k + 16 * r) 16)

/-- R139: an entry of a codebook register. -/
def Codebook.get (b : Codebook) (i : Nat) : Nat := (nth 0 b.entry i).toNat

/-- R122: steps 1 to 4 for one element. -/
def Ctx.operand (x : Ctx) (b : Bool) (raw : Nat) (scale : Option Nat) : XF19 × FlagSet :=
  let f := x.fmt b
  if f == 6 then
    let c := x.cb.get Codebook.reset (x.cbNum b)
    if c.n ≤ raw then
      let r := toXF19 (.fin false 0 0) scale
      (r.1, r.2 ||| fNV)
    else toXF19 (value (fmtOf c.tag) (c.get raw)) scale
  else if f == 5 then toXF19 (intFV (bpnPrefix raw (x.planes b))) scale
  else toXF19 (value (fmtOf f) raw) scale

/-- R122: a row of operands; scale index m of element j. -/
def Ctx.operands (x : Ctx) (b : Bool) (raw : List Nat) (scales : Option (List (BitVec 16))) (per : Nat) :
    List XF19 × FlagSet :=
  let r := tab 128 fun j => x.operand b (nth 0 raw j) (scales.map fun l => (nth 0 l (j / per)).toNat)
  (r.map (·.1), orFlags (r.map (·.2)))

/-! ## Rings and scales at a beat (R121, R123, R124) -/

def Core.tiles (c : Core) (b : Bool) : List Tile := if b then c.btiles else c.atiles

/-- R121: a tld into the ring is outstanding, with a claim or without one. -/
def Core.tldInto (c : Core) (b : Bool) : Bool :=
  (c.tiles b).any (·.prod) || c.ctxs.any fun e => e.2.prods.any fun p => match p.work with
    | .tile o => !o.store && o.dest == (if b then .ringB else .ringA)
    | _ => false

/-- R121: the valid head tile, or the stall or fault of a beat that finds none. -/
def Core.head (c : Core) (b : Bool) : Except Void Tile :=
  match (c.tiles b).head?.filter (·.valid) with
  | some t => .ok t
  | none => .error (if c.tldInto b then .stall .ring else fault 0x08 (b2n b))

/-- R123, R124: n scales at the head of the queue. -/
def State.scalesHead (s : State) (n : Nat) : Except Void (List (BitVec 16)) :=
  let c := s.mycore
  if n ≤ c.scales.length then .ok (c.scales.take n)
  else if c.scalesIn.any fun e => e.1 == s.j then .error (.stall .scale)
  else .error (fault 0x09 n)

def Core.dropScales (c : Core) (n : Nat) : Core := { c with scales := c.scales.drop n }

/-! ## Beats -/

/-- The column sums of an A row with the active weights (R30, R131). -/
def Core.sums (c : Core) (a : List XF19) : List (W32 × FlagSet) :=
  let w := tab 128 fun k => c.active.get zeroXRow k
  tab 128 fun j => columnSum a (w.map fun r => nth 0 r j)

/-- R131: the accumulation of one A row, landing in 6 ticks. -/
def State.accumRow (s : State) (n : Bool) (q : Nat) (a : List XF19 × FlagSet) : State :=
  let t := s.mycore.sums a.1
  s.landB (.acc n q (t.map (·.1))) 6 (a.2 ||| orFlags (t.map (·.2)))

/-- R131: the A scales of a beat: four, one to 32 elements. -/
def State.aScales (s : State) : Except Void (State × Option (List (BitVec 16))) :=
  if bit s.me.mctl 29 then do
    let l ← s.scalesHead 4
    pure (s.updMyCore fun c => c.dropScales 4, some l)
  else .ok (s, none)

/-- R131. -/
def State.maccBeat (s : State) (pop n : Bool) (q : Nat) : Except Void State := do
  let c := s.mycore
  let t ← c.head false
  let x := s.me
  let raw := rowRaw (x.fmt false) (x.idxW false) (fun o k => c.ring false (t.offset + o) k) c.arc
  let (s, sc) ← s.aScales
  let s := s.accumRow n q (x.operands false raw sc 32)
  pure (s.updMyCore fun c => if pop then c.retireA else { c with arc := (c.arc + 1) % 128 })

/-- R132: check 5 of a macc.g on a plane or coded A format, then its scratchpad row. DESIGN CHOICE (log 80): the fault
information of check 5 is MCTL as it stands. DESIGN CHOICE (log 81): R132 and R124 give their checks no order; check 5 comes
first, then the row's address, then the scales. -/
def State.maccGBeat (s : State) (n : Bool) (q : Nat) (addr : Nat) : Except Void State := do
  let x := s.me
  let f := x.fmt false
  need (f < 5) (faultAt 0x07 5 0 x.mctl.toNat)
  let row := 128 * fmtBytes f
  let c := s.mycore
  s.scrOk addr row row
  let raw := rowRaw f 1 (fun _ k => c.scr addr k) 0
  let (s, sc) ← s.aScales
  pure (s.accumRow n q (x.operands false raw sc 32))

/-- R123: the B scales of an mpush: 128 taken and held at a multiple of 16, the held ones otherwise. -/
def State.bScales (s : State) : Except Void (State × Option (List (BitVec 16))) :=
  let c := s.mycore
  if !bit s.me.mctl 30 then .ok (s, none)
  else if c.brc % 16 == 0 then do
    let l ← s.scalesHead 128
    pure (s.updMyCore fun c => { c.dropScales 128 with bscales := some l }, some l)
  else match c.bscales with
    | some l => .ok (s, some l)
    | none => .error (fault 0x09 0)

/-- R298: TINFO of a malformed stream. -/
def malformedInfo (x : Ctx) (brc : Nat) (m : Malformed) : Nat :=
  bits x.dprog 31 16 * 2 ^ 48 + bits x.dprog 3 0 * 2 ^ 44 + brc * 2 ^ 38 + m.at_ % 2 ^ 18 * 2 ^ 20 + m.reason

/-- R125, R128: the 256 symbols of segment BRC. -/
def State.segSymbols (s : State) : Except Void (List Nat) :=
  let c := s.mycore
  if 1 ≤ c.fifoSegs then .ok (c.fifo.take 256)
  else match c.malformed with
    | some m => if m.seg == c.brc then .error (fault 0x0A (malformedInfo s.me c.brc m)) else .error (.stall .dec)
    | none => .error (.stall .dec)

/-- R129: the encodings of rows 2·BRC and 2·BRC + 1. -/
def State.bRows (s : State) (t : Tile) : Except Void (List Nat × List Nat) :=
  let c := s.mycore
  let x := s.me
  if x.fmt true == 6 && bit x.mctl 31 then do
    let l ← s.segSymbols
    pure (l.take 128, l.drop 128)
  else
    let rd := fun (r : Nat) => rowRaw (x.fmt true) (x.idxW true) (fun o k => c.ring true (t.offset + o) k) r
    .ok (rd (2 * c.brc), rd (2 * c.brc + 1))

/-- R129, R121, R126, R317. DESIGN CHOICE (log 81): the head tile is looked for first, then the scales, then the
symbols. DEDUCED (log 104): as BRC goes from 63 to 0 without .pop the FIFO, which runs on into the next tile, is emptied. -/
def State.mpushBeat (s : State) (pop : Bool) : Except Void State := do
  let t ← s.mycore.head true
  let (s, sc) ← s.bScales
  let rows ← s.bRows t
  let x := s.me
  let brc := s.mycore.brc
  let ent := x.fmt true == 6 && bit x.mctl 31
  let a := x.operands true rows.1 sc 1
  let b := x.operands true rows.2 sc 1
  let s := s.landB (.push (2 * brc) a.1 b.1) 1 (a.2 ||| b.2)
  let j := s.j
  pure (s.updMyCore fun c =>
    let c := if ent then c.takeSymbols else c
    let c := if t.counted then c.setCtx j ((c.ctx j).bankAdj t.gen 0 1) else c
    if pop then c.retireB j (brc + 1)
    else
      let y := c.ctx j
      let d := dprogOf (bits y.dprog 31 16) (bits y.dprog 15 12) ((brc + 1) % 64) (bits y.dprog 3 0)
      let c := { c.setCtx j { y with dprog := d } with brc := (brc + 1) % 64 }
      if ent && brc == 63 then c.clearFifo else c)

/-- R133: the accumulator element lane l of a shape takes. -/
def drainAt (c : Core) (h : Shape) (n : Bool) (i l : Nat) : W32 :=
  match h with
  | .row => nth 0 ((c.acc n).get zeroRow i) l
  | .col => nth 0 ((c.acc n).get zeroRow l) i
  | .diag => nth 0 ((c.acc n).get zeroRow l) ((l + i) % 128)

/-- R133: the md landing. -/
def State.mdrainBeat (s : State) (h : Shape) (n : Bool) (i : Nat) (d : VDst) (f : CvtFmt) (u : Bool) : State :=
  let c := s.mycore
  let r := tab 128 fun l => convert .rne .fp32 f u (drainAt c h n i l).toNat
  let w := packLanes (widthOf f) 128 fun l => (nth (0, 0) r l).1
  s.landW .md (vdst d) w 4 (orFlags (r.map (·.2))) true

/-- The meaning of an M word whose beats may be played (R136, R137), without ownership; other words have
none here. -/
def State.beatOf (s : State) (row : Nat) : Instr → Option (Except Void State)
  | .mpush p => some (s.mpushBeat p)
  | .mswap => some (.ok (s.landB .swap 1 0))
  | .macc p n q => some (s.maccBeat p n ((q.toNat + row) % 128))
  | .mdrain h n i d f u => some (.ok (s.mdrainBeat h n ((i.toNat + row) % 128) d f u))
  | .mzero n f c => some (.ok (s.landB (.zero n ((f.toNat + row) % 128) (c.toNat + 1)) 1 0))
  | _ => none

/-- R138: a fault of a played beat names its iteration and entry, and closes the play. DEDUCED (log 118): the information
that R379 gives a cause without an address is its TINFO, and DFAULT1 holds that. -/
def playFault (p : Play) : Void → Void
  | .stall c => .stall c
  | .claim b len coded => .claim b len coded
  | .fetch => .fetch
  | .trap r => .trap { r with
      play := true,
      df := some ⟨3, 0, (r.df.map (·.info)).getD 0, (if hasAddress r.cause then (r.df.map (·.addr)).getD 0 else r.tinfo), 0,
        2 ^ 63 + p.iter % 2 ^ 32 * 256 + (p.start + p.pos) % 256⟩ }

/-- R137: the play after one of its beats. -/
def Play.next (p : Play) : Option Play :=
  if p.pos + 1 < p.length then some { p with pos := p.pos + 1 }
  else if p.left ≤ 1 then none
  else some { p with pos := 0, iter := p.iter + 1, left := p.left - 1 }

/-- R137: the open play's beat of this tick issues. -/
def State.playBeat (s : State) (p : Play) : Except Void State :=
  let w := (nth 0 p.entries p.pos).toNat
  let row := if w / 2 ^ 31 == 1 then p.iter % 128 else 0
  let done := fun (t : State) => t.updMyCore fun c => { c with play := p.next }
  match decodeWord (w % 2 ^ 31) with
  | .error _ => .ok (done s)
  | .ok i =>
    match s.beatOf row i with
    | none => .ok (done s)
    | some _ =>
      match s.beat (fun s => (s.beatOf row i).getD (.ok s)) with
      | .ok t => .ok (done t)
      | .error v => .error (playFault p v)

/-! ## The instructions -/

/-- R43. -/
def execNopM (s : State) : Host.Outcome State Fault Refusal := .next s

/-- R129. -/
def execMpush (p : Bool) (s : State) : Host.Outcome State Fault Refusal := slot s (s.beat fun s => s.mpushBeat p)

/-- R130. -/
def execMswap (s : State) : Host.Outcome State Fault Refusal := slot s (s.beat fun s => .ok (s.landB .swap 1 0))

/-- R131. -/
def execMacc (p n : Bool) (q : BitVec 7) (s : State) : Host.Outcome State Fault Refusal :=
  slot s (s.beat fun s => s.maccBeat p n q.toNat)

/-- R132: lane q of the source is the row's scratchpad address. -/
def execMaccG (n : Bool) (q : BitVec 7) (a : VSrc) (s : State) : Host.Outcome State Fault Refusal :=
  slot s (s.beat fun s => s.maccGBeat n q.toNat (lane (s.readV a) q.toNat).toNat)

/-- R133. -/
def execMdrain (h : Shape) (n : Bool) (i : BitVec 7) (d : VDst) (f : CvtFmt) (u : Bool) (s : State) :
    Host.Outcome State Fault Refusal :=
  slot s (s.beat fun s => .ok (s.mdrainBeat h n i.toNat d f u))

/-- R134: the count field holds the count less one (R60). -/
def execMzero (n : Bool) (f c : BitVec 7) (s : State) : Host.Outcome State Fault Refusal :=
  slot s (s.beat fun s => .ok (s.landB (.zero n f.toNat (c.toNat + 1)) 1 0))

/-- R119: a value that changes BENT or BDT empties the FIFO and recomputes the in-flight counts. -/
def Core.setMctl (c : Core) (j : Nat) (v : Word) : Core :=
  let x := c.ctx j
  let same := bit x.mctl 31 == bit v 31 && bits x.mctl 42 40 == bits v 42 40
  let x := { x with mctl := v }
  if same then c.setCtx j x
  else
    let on := bit v 31
    let tiles := c.btiles.map fun t => if t.valid && on then { t with gen := c.tileGen t } else t
    let had := c.fifoSegs != 0
    let g := match c.btiles with
      | t :: _ => if t.valid then c.tileGen t else 0
      | [] => 0
    let d := if had then dprogOf (bits x.dprog 31 16) g (bits x.dprog 10 4) (bits x.dprog 3 0) else x.dprog
    (c.clearFifo.setCtx j { x with dprog := d }).recount j tiles

/-- R119. -/
def execMcfg (a : SSrc) (s : State) : Host.Outcome State Fault Refusal :=
  slot s (do
    let v ← s.readS a
    s.beat fun s =>
      match mcfgCheck v with
      | some k => .error (faultAt 0x07 k 0 v.toNat)
      | none => .ok (s.updMyCore fun c => c.setMctl s.j v))

/-- R137: the iteration count is bits 31:0; the length field holds the length less one (R60). R40, R138: a bundle with an M
slot while a play of its context is open, in whatever handler, is illegal for reason 9, so no mrun replaces an open play
(log 68). -/
def execMrun (b : BitVec 8) (a : SSrc) (l : BitVec 7) (s : State) : Host.Outcome State Fault Refusal :=
  slot s (do
    let v ← s.readS a
    s.beat fun s =>
      let it := bits v 31 0
      if it == 0 then .ok s
      else
        let p : Play := ⟨s.j, s.me.depth, tab (l.toNat + 1) fun i => s.mycore.beats.get 0x20000000 (b.toNat + i), b.toNat,
          l.toNat + 1, 0, 0, it⟩
        s.playBeat p)

/-- R137: the beat of an open play of the core's current context, at its tick. -/
def execPlayedBeat (core : Nat) (s : State) : Host.Outcome State Fault Refusal :=
  match s.mycore.play with
  | some p => if core == s.cur && s.mycore.playing s.j then slot s (s.playBeat p) else .next s
  | none => .next s

end Sys2Proof.Machine
end

