-- ==== Sys2Proof/Machine/Platform.lean ====
section
/-! DEFINITION. Machine/Platform.lean: host and peer accesses, configuration space, boot and attestation, resets and
reassignment, heat, and the Polrum port (R3, R252, R274, R418-R431). -/

namespace Sys2Proof.Machine

open Sys2Proof

/-! ## Host and peer accesses (R274, R366, R423, R425) -/

/-- R423: the agent number it is logged with. -/
def Outside.agent (o : Outside) : Nat := if o.peer.isNone then 0xFFFF else 0xFFFE

/-- The bytes it reaches. -/
def Outside.bytes (o : Outside) : Nat :=
  match o.op with
  | .write bs => bs.length
  | .read n => n
  | _ => 8

/-- The kind a refused access is logged with (R398, R423). -/
def outsideKind : Nat → Nat
  | 1 => 8 | 2 => 1 | 3 => 2 | 4 => 3 | _ => 4

/-- A refused access completes as an Unsupported Request: no data, and an entry in HVLOG. -/
def State.refuse (s : State) (o : Outside) (cause addr : Nat) : State :=
  { s.updVdev o.vdev fun d => { d with hvlog := logTbl d.hvlog addr (outsideKind cause) o.agent 0 } with reply := [] }

/-- R264: device memory written at user level. -/
def State.outWrite (s : State) (o : Outside) (bs : List Byte) : State :=
  let r := s.devWrite o.vdev o.va bs true 0xFFF
  match r.2 with
  | .ok _ => { r.1 with reply := [] }
  | .error e => r.1.refuse o e.1 e.2

/-- R366: a read returns the value at the home. -/
def State.outRead (s : State) (o : Outside) (n : Nat) : State :=
  let r := s.devRead o.vdev o.va n true
  match r.2 with
  | .ok bs => { r.1 with reply := bs }
  | .error e => r.1.refuse o e.1 e.2

/-- R264, R274: an atomic of 8 bytes at its home, which needs write permission, returns the old value; an address that is no
multiple of 8 is refused unlogged (log 38). DESIGN CHOICE (log 100): it has no scope, and is performed at the L2 home for a
line of TIER 2 too. -/
def State.outAtomic (s : State) (o : Outside) (f : Nat → Nat) : State :=
  if o.va % 8 != 0 then { s with reply := [] }
  else
    let walked := s.walked [] o.vdev o.va
    match s.translate [] o.vdev o.va .w true with
    | .error c => walked.refuse o c o.va
    | .ok t =>
      let r := walked.atomicHome t.pa 8 o.vdev (fld t.pte 8 7) 0xFFF f
      match r.2 with
      | .error c => r.1.refuse o c o.va
      | .ok old => { r.1 with reply := toBytes 8 old }

/-- An access from outside is performed. -/
def State.outRun (s : State) (o : Outside) : State :=
  match o.op with
  | .write bs => s.outWrite o bs
  | .read n => s.outRead o n
  | .add w => s.outAtomic o fun x => x + w
  | .swap w => s.outAtomic o fun _ => w
  | .cas cmp w => s.outAtomic o fun x => if x == cmp % 2 ^ 64 then w else x
  | .coll bs =>
    match wireOf (o.peer.getD 0) o.vdev bs with
    | some w => { s.wireArrive w with reply := [] }
    | none => { s with reply := [] }

/-- R230, R268, R366: it waits while its walk meets a migrating page, while its plane aims at a pool unit in transition, or
behind one of its agent that waits (log 77). -/
def State.outWaits (s : State) (before : List Outside) (o : Outside) : Bool :=
  (match o.op with
    | .coll bs => (wireOf (o.peer.getD 0) o.vdev bs).any s.wireHeld
    | _ => s.moving [] o.vdev o.va o.bytes) || before.any fun k => k.peer == o.peer

/-- An access from outside arrives. -/
def State.outside (s : State) (o : Outside) : State :=
  if s.outWaits s.waitq o then { s with waitq := s.waitq ++ [o], reply := [] } else s.outRun o

/-- The first waiting access that need wait no longer is performed; those before it wait on. -/
def State.outRetry (s : State) (before : List Outside) : List Outside → State
  | [] => s
  | o :: rest =>
    if s.outWaits before o then s.outRetry (before ++ [o]) rest
    else ({ s with waitq := before ++ rest }).outRun o

/-- R423: the device address of an offset of a virtual function's BAR 2; none beyond the window, for no function, and
in recovery (R419). -/
def State.hostVa (s : State) (v off n : Nat) : Option Nat :=
  if s.recovery || 64 ≤ v || 2 ^ 40 < off + n then none else some (bits (s.vdev v).hwbase 51 40 * 2 ^ 40 + off)

/-- R423: an access of the host at an offset of the window; one that reaches nothing has no data. -/
def State.hostAccess (s : State) (v off n : Nat) (op : OutOp) : Host.Outcome State Fault Refusal :=
  match s.hostVa v off n with
  | none => .next { s with reply := [] }
  | some va => .next (s.outside ⟨none, v, va, op⟩)

/-- R423, R366. -/
def execHostMemoryWrite (vdev off : Nat) (bytes : List (BitVec 8)) (s : State) : Host.Outcome State Fault Refusal :=
  s.hostAccess vdev off bytes.length (.write bytes)

/-- R274. -/
def execHostAtomicopFetchadd (vdev off w : Nat) (s : State) : Host.Outcome State Fault Refusal :=
  s.hostAccess vdev off 8 (.add w)

/-- R274. -/
def execHostAtomicopSwap (vdev off w : Nat) (s : State) : Host.Outcome State Fault Refusal :=
  s.hostAccess vdev off 8 (.swap w)

/-- R274. -/
def execHostAtomicopCas (vdev off cmp w : Nat) (s : State) : Host.Outcome State Fault Refusal :=
  s.hostAccess vdev off 8 (.cas cmp w)

/-- R425: the peer package that a Causeway port links to, below 0xFFFF. -/
def portPeer (port : Nat) : Nat := Config.causewayPeer port % 0xFFFF

/-- R312, R425: the next collective message for a virtual device of a peer leaves. -/
def State.wireSend (s : State) (peer vdev : Nat) : State :=
  match s.wire.find? fun w => w.peer == peer && w.vdev == vdev with
  | some w => { s with wire := s.wire.erase w, reply := w.bytes }
  | none => { s with reply := [] }

/-- R274, R312, R425: an access of the peer at one of the 16 ports: op 0 writes the bytes, op 1 reads as many bytes, op 2
claims a slot by adding 1 to the 8 bytes there, op 3 brings a collective message, op 4 takes the next one for it (log 33). -/
def execCausewayAccess (port vdev op va : Nat) (bytes : List (BitVec 8)) (s : State) :
    Host.Outcome State Fault Refusal :=
  if 16 ≤ port || 64 ≤ vdev then .next { s with reply := [] }
  else if op == 4 then .next (s.wireSend (portPeer port) vdev)
  else .next (s.outside ⟨some (portPeer port), vdev, va, match op with
    | 0 => .write bytes
    | 1 => .read bytes.length
    | 2 => .add 1
    | _ => .coll bytes⟩)

/-- R423: the host, through PF0, or a system core moves the window. -/
def execHwbaseWrite (vdev w : Nat) (s : State) : Host.Outcome State Fault Refusal :=
  .next (if vdev < Config.numDevices then
    s.updVdev vdev fun d => { d with hwbase := BitVec.ofNat 64 (fld w 51 40 * 2 ^ 40) } else s)

/-- R269: a system core's store, at a physical address. -/
def execSystemCoreStore (pa : Nat) (bytes : List (BitVec 8)) (s : State) : Host.Outcome State Fault Refusal :=
  .next (s.bySystem (s.homeWrite pa bytes 0 0 .write 0xFFF))

/-! ## Configuration space (R3, R251, R267, R273, R288, R304, R323, R382, R427, R428) -/

/-- Bits h to l of a register's new value, in place. -/
def cfg (w h l : Nat) : Word := BitVec.ofNat 64 (fld w h l * 2 ^ l)

/-- The registers of a virtual device's block; the numbers are the model's (log 37). -/
def VDev.write (d : VDev) (reg w : Nat) : VDev :=
  match reg with
  | 0 | 1 | 2 | 3 => { d with mscway := d.mscway.set reg (w % 65536) }
  | 4 => { d with mscpol := w % 64 }
  | 5 => { d with ptbase := cfg w 51 16 ||| cfg w 0 0 }
  | 6 => { d with htbase := cfg w 51 18 }
  | 7 => { d with mcqbase := cfg w 63 63 ||| cfg w 51 6 }
  | 8 => { d with hintbase := cfg w 63 63 ||| cfg w 51 11 }
  | 9 => { d with hvlog := d.hvlog.set 1 (w1c (d.hvlog.get 0 1) (BitVec.ofNat 64 w)) }
  | 10 => { d with hvlog := d.hvlog.set 3 (cfg w 31 0) }
  | 11 => { d with pfhit := BitVec.ofNat 64 w }
  | 12 => { d with pfmiss := BitVec.ofNat 64 w }
  | 13 => { d with pfdrop := BitVec.ofNat 64 w }
  | 14 => { d with hwbase := cfg w 51 40 }
  | _ =>
    if 64 ≤ reg ∧ reg < 128 then { d with cqtab := d.cqtab.set (reg - 64) (cfg w 63 63 ||| cfg w 51 6) }
    else if 128 ≤ reg ∧ reg < 144 then { d with lqtab := d.lqtab.set (reg - 128) (cfg w 63 63 ||| cfg w 51 6) }
    else d

/-- The registers of a Pier die: 0 MIGCTL, 1 ERRHEAD, 2 the fabric island's frequency in MHz, within its limits. -/
def Pier.write (d : Pier) (reg w : Nat) : Pier :=
  match reg with
  | 0 => { d with migctl := BitVec.ofNat 64 w }
  | 1 => { d with logCount := (BitVec.ofNat 32 d.logCount &&& ~~~BitVec.ofNat 32 (w / 2 ^ 32)).toNat }
  | 2 => if 800 ≤ w ∧ w ≤ 1600 then { d with fabric := w } else d
  | _ => d

/-- R275: a queue whose register is written is served from the RI of its header, unless packets or launches of it are
active. -/
def State.requeue (s : State) (v reg : Nat) : State :=
  let d := s.vdev v
  let drop := fun (l : Bool) (hv : Nat) =>
    let active := if l then s.launches.any fun e => e.2.vdev == v && e.2.qva == hv && !e.2.ended
      else s.packets.any fun p => p.vdev == v && p.hdr == hv
    if active then s
    else { s with takes := s.takes.filter fun t => !(t.vdev == v && t.queue == hv && t.launchQ == l) }
  if 64 ≤ reg ∧ reg < 128 then drop false (tabVa (d.cqtab.get 0 (reg - 64)))
  else if 128 ≤ reg ∧ reg < 144 then drop true (tabVa (d.lqtab.get 0 (reg - 128)))
  else s

/-- R3, R428: block 0 holds the clusters' timers, 1 the virtual devices, 2 the Pier dies, 3 the Span dies' array
frequency in kHz, 4 the cores' registers that system cores set (R213, R217, R218). Other registers ignore it. -/
def State.cfgWrite (s : State) (block unit reg w : Nat) : State :=
  match block with
  | 0 => if unit < Config.numClusters ∧ reg < 32 then
      s.updCluster unit fun c => { c with timers := c.timers.set reg (BitVec.ofNat 64 w) } else s
  | 1 => if unit < Config.numDevices then (s.updVdev unit fun d => d.write reg w).requeue unit reg else s
  | 2 => if unit < Config.numPiers then s.updPier unit fun d => d.write reg w else s
  | 3 => if decide (unit < Config.numSpans ∧ 500000 ≤ w ∧ w ≤ 1000000) && w % 62500 == 0 then
      { s with arrayFreq := s.arrayFreq.set unit w } else s
  | 4 => if decide (unit < Config.numCores) && [0x014, 0x028, 0x029, 0x040].contains reg then
      s.ctlWrite unit (s.core unit).cur reg (BitVec.ofNat 64 w) else s
  | _ => s

/-- R419, R423: the writer of a configuration register reaches it: 0 the system cores, of which none runs in recovery; 1 the
host through PF0 BAR 0, which holds blocks 0 to 2 but not the fabric frequency, that system cores set (R428); 2 + v the host
through BAR 0 of virtual function v, closed in recovery: the launch-queue registers, HWBASE, and the writable fields of
HVLOG of virtual device v. -/
def State.cfgReaches (s : State) (by_ block unit reg : Nat) : Bool :=
  match by_ with
  | 0 => !s.recovery
  | 1 => decide (block ≤ 2) && !(block == 2 && reg == 2)
  | v + 2 => !s.recovery && block == 1 && unit == v
      && ([9, 10, 14].contains reg || decide (128 ≤ reg ∧ reg < 144))

/-- R3, R423. -/
def execConfigRegisterWrite (block : CfgBlock) (unit reg w : Nat) (s : State) : Host.Outcome State Fault Refusal :=
  .next (if s.cfgReaches block.by_ block.block unit reg then s.cfgWrite block.block unit reg w else s)

/-! ## Reads through BAR 0 (R3, R419, R423, R427) -/

/-- The registers of a virtual device's block, numbered as for a write; HVLOG0 is 15 and HVLOG2 16. -/
def VDev.read (d : VDev) (reg : Nat) : Nat :=
  match reg with
  | 0 | 1 | 2 | 3 => d.mscway.get 0xFFFF reg
  | 4 => d.mscpol
  | 5 => d.ptbase.toNat
  | 6 => d.htbase.toNat
  | 7 => d.mcqbase.toNat
  | 8 => d.hintbase.toNat
  | 9 => (d.hvlog.get 0 1).toNat
  | 10 => (d.hvlog.get 0 3).toNat
  | 11 => d.pfhit.toNat
  | 12 => d.pfmiss.toNat
  | 13 => d.pfdrop.toNat
  | 14 => d.hwbase.toNat
  | 15 => (d.hvlog.get 0 0).toNat
  | 16 => (d.hvlog.get 0 2).toNat
  | _ =>
    if 64 ≤ reg ∧ reg < 128 then (d.cqtab.get 0 (reg - 64)).toNat
    else if 128 ≤ reg ∧ reg < 144 then (d.lqtab.get 0 (reg - 128)).toNat
    else 0

/-- The registers of a Pier die, numbered as for a write; CHUNK_RSV is 3 and CHUNK_FREE 4 (R254). DESIGN CHOICE (log 119): FREE,
of 32 bits, saturates; what R255 asks of FREE is asked of the list itself. -/
def Pier.read (d : Pier) (isOpen : Bool) (reg : Nat) : Nat :=
  match reg with
  | 0 => d.migctl.toNat
  | 1 => d.logCount * 2 ^ 32 + d.logHead
  | 2 => d.fabric
  | 3 => d.chunkRsv
  | 4 => b2n isOpen * 2 ^ 63 + min (2 ^ 32 - 1) d.free.length
  | _ => 0

/-- Word i of a Pier die's error log (R427). -/
def Pier.logWord (d : Pier) (i : Nat) : Nat :=
  let e := d.log.get (0, 0) (i / 2)
  if i % 2 == 0 then e.1 else e.2

/-- A register of the configuration blocks as the host reads it; block 5 is BOOTSTAT, block 6 ERRLOG, with ERRHEAD after the
128 words of entries. -/
def State.cfgRead (s : State) (block unit reg : Nat) : Nat :=
  match block with
  | 0 => if unit < Config.numClusters ∧ reg < 32 then ((s.cluster unit).timers.get 0 reg).toNat else 0
  | 1 => if unit < Config.numDevices then (s.vdev unit).read reg else 0
  | 2 => if unit < Config.numPiers then (s.pier unit).read s.tierOpen reg else 0
  | 5 => if reg < 8 then ofBytes ((s.bootstat.drop (8 * reg)).take 8) else 0
  | 6 => if Config.numPiers ≤ unit then 0 else if reg < 128 then (s.pier unit).logWord reg
      else if reg == 128 then (s.pier unit).read s.tierOpen 1 else 0
  | _ => 0

/-- A read of BAR 0: function 64 is PF0, whose byte offset is 8 times block × 2^18 + unit × 2^8 + register, and 65 + v virtual
function v, 8 times the register (log 37); only PF0 is there in recovery (R419). -/
def State.barRead (s : State) (fn off : Nat) : List Byte :=
  let i := off / 8
  if fn == 64 then toBytes 8 (s.cfgRead (i / 2 ^ 18) (i / 2 ^ 8 % 2 ^ 10) (i % 2 ^ 8))
  else if s.recovery || 128 < fn then []
  else toBytes 8 (s.cfgRead 1 (fn - 65) i)

/-- R423, R366: a read of BAR 2 of virtual function `fn`; of a BAR 0, from function 64 on. -/
def execHostMemoryRead (fn off len : Nat) (s : State) : Host.Outcome State Fault Refusal :=
  if fn < 64 then s.hostAccess fn off len (.read len) else .next { s with reply := s.barRead fn off }

/-! ## Clusters changing hands (R87, R110, R135, R239, R424) -/

/-- A core cleared for another virtual device: array state, pattern and beat stores, decoder tables, UPEND and DPROG
reset; nothing of the contexts' work goes on. -/
def Core.clear (c : Core) (cbctl : Bool) : Core :=
  { c with
    acc0 := [], acc1 := [], active := [], shadow := [], arc := 0, brc := 0, ahd := c.atl, bhd := c.btl, atiles := [],
    btiles := [], scales := [], scalesIn := [], bscales := none, fifo := [], fifoSegs := 0, replay := 0,
    malformed := none, play := none, owner := none, saved := [], shuffle := [], beats := [], unitOps := [],
    l1 := [], l1upset := [], utlb := [], setpool := none,
    ctxs := c.ctxs.mapVals fun _ x => { x.leave with
      prods := [], phaseRel := [], dt := [], dprog := 0, upend := 0, cbctl := if cbctl then 0x10 else x.cbctl } }

/-- The records of a cluster that are leaving its barriers (R268, R279). -/
def State.unparking (s : State) (cl : Nat) : List Entry := s.hwq.filterMap fun w => match w.op with
  | .unpark c k _ => if c == cl then some k.entry else none
  | _ => none

/-- The items of a cluster's records, listed, parked or running, end as killed. -/
def State.killCluster (s : State) (cl : Nat) : State :=
  let c := s.cluster cl
  let gone := ((c.lists.flatMap fun e => e.2) ++ c.parked.map (·.entry) ++ s.unparking cl).map (fun e => (e.launch, e.addr))
    ++ (clusterCtxs cl).filterMap fun x => (s.ctx x.1 x.2).held.map fun h => (h.launch, h.addr)
  gone.foldl (fun s g => match s.launch g.1 with
    | some l => s.itemEnd g.1 (l.slotOf g.2)
    | none => s) s

/-- R424: everything of a cluster's work is cleared. -/
def State.clearCluster (s : State) (cl : Nat) (cbctl : Bool) : State :=
  let cores := (List.range 8).map (8 * cl + ·)
  let mine := fun (space loc : Nat) => if space == 0 then clusterOf loc == cl else loc == cl
  let s := cores.foldl (fun s n => s.l1WriteBack n fun _ => true) s
  let s := s.launches.foldl (fun s e => s.returnBatches cl e.1 e.2) s
  let s := s.killCluster cl
  let s := cores.foldl (fun s n => s.updCore n fun c => c.clear cbctl) s
  let s := s.updCluster cl fun c => { c with csram := ⟨[]⟩, lists := [], parked := [], batches := [], ctlb := [], idle := 0 }
  let s := s.unpin ((s.gathers.filter fun g => clusterOf g.core == cl).flatMap (·.pinned))
  { s with
    gathers := s.gathers.filter (fun g => clusterOf g.core != cl), wides := s.wides.filter (fun w => clusterOf w.core != cl),
    barMsgs := s.barMsgs.filter (fun m => !mine m.space m.loc), phases := s.phases.filter (fun r => clusterOf r.core != cl),
    hwq := s.hwq.filter (fun w => match w.op with
      | .unpark c _ _ => c != cl
      | _ => true),
    parties := s.parties.filter (fun p => clusterOf p.core != cl && clusterOf p.rcore != cl),
    uirqs := s.uirqs.filter fun u => !mine u.space u.loc && clusterOf (u.ctx / 4) != cl }

/-- R18, R424: the cluster passes to the virtual device, or to none where the number names none (log 93). -/
def execClusterReassignment (cluster vdev : Nat) (s : State) : Host.Outcome State Fault Refusal :=
  .next (if Config.numClusters ≤ cluster then s
    else s.bySystem ((s.clearCluster cluster false).updCluster cluster fun c =>
      { c with device := if vdev < Config.numDevices then some vdev else none }))

/-- R273, R251: a virtual device's queue registers disabled and its R251 registers reset. -/
def VDev.disable (d : VDev) : VDev :=
  let off := fun (_ : Nat) (w : Word) => w &&& 0x7FFFFFFFFFFFFFFF
  { d with
    cqtab := d.cqtab.mapVals off, lqtab := d.lqtab.mapVals off, mscway := VDev.reset.mscway,
    mscpol := VDev.reset.mscpol, ptbase := VDev.reset.ptbase, htbase := VDev.reset.htbase }

/-- R424: also what its collectives know of other packages goes. -/
def execVirtualDeviceReset (vdev : Nat) (s : State) : Host.Outcome State Fault Refusal :=
  let cs := (List.range Config.numClusters).filter fun c => (s.cluster c).vdev == vdev
  .next (if Config.numDevices ≤ vdev then s
    else
      let t := (cs.foldl (fun s c => s.clearCluster c true) s).updVdev vdev VDev.disable
      s.bySystem { t with remotes := t.remotes.filter (fun r => r.vdev != vdev), wire := t.wire.filter fun w => w.vdev != vdev })

/-! ## Boot (R418-R420) -/

def slotBase (k : Nat) : Nat := k * 33554432
def floorAt : Nat := 67108864

/-- R421: the PUF helper data of a Pier die in flash: 1,024 bytes after the floor record; their place is the model's (log 6). -/
def helperAt (die : Nat) : Nat := floorAt + 4096 * (die + 1)

/-- The 32 bytes of MAC of a floor record's first half. -/
def State.floorMac (s : State) (head : List Byte) : List Byte :=
  (Config.floorMac (s.puf.take 32) head ++ List.replicate 32 0).take 32

/-- R420: the version floor; 0 where the record's MAC fails. Its layout is the model's (log 6). -/
def State.floor (s : State) : Nat :=
  let r := s.flash.readN floorAt 64
  if s.floorMac (r.take 32) == r.drop 32 then numAt r 0 4 else 0

/-- R418, R419: the image of a slot, if the boot ROM accepts it: version, LOAD and its bytes. DESIGN CHOICE (log 127): one whose
image would run past the end of HBM is not accepted. -/
def State.bootSlot (s : State) (k : Nat) : Option (Nat × Nat × List Byte) :=
  let h := s.flash.readN (slotBase k) 5440
  let len := numAt h 8 8
  let load := numAt h 16 8
  let image := s.flash.readN (slotBase k + 5440) len
  let part := fun (a b : Nat) => (h.drop a).take (b - a)
  let signed := h.take 64 ++ image
  if numAt h 0 4 == 0x424B5841 && decide (1048576 ≤ len ∧ len ≤ 32505856 ∧ load + len ≤ Config.hbmEnd) && load % 4096 == 0
      && (part 24 64).all (· == 0) && (part 5421 5440).all (· == 0)
      && Config.keyAccepted (Config.sha512 (part 64 2048))
      && Config.edVerify (part 64 96) signed (part 2048 2112)
      && Config.mlVerify (part 96 2048) signed (part 2112 5421)
      && decide (s.floor ≤ numAt h 4 4) then some (numAt h 4 4, load, image)
  else none

/-- R421: the 256-bit seeds of the PUFs, reconstructed from their helper data, in Pier-die order. -/
def State.seeds (s : State) : List Byte := (List.range Config.numPiers).flatMap fun d =>
  (Config.pufSeed d (s.flash.readN (helperAt d) 1024) ++ List.replicate 32 0).take 32

/-- R419: package reset, then the boot ROM: the keys are derived, the first slot accepted is copied and measured, and the
system cores are released at its LOAD; without one the package stays in recovery. Flash, sensors and the model's own inputs
stay. -/
def State.boot (s : State) : State :=
  let t := { State.reset with
    flash := s.flash, temps := s.temps, power := s.power, agenda := s.agenda, fresh := s.fresh,
    puf := s.seeds }
  match (t.bootSlot 0).or (t.bootSlot 1) with
  | none => { t with recovery := true }
  | some (v, load, image) => { t with
      mem := t.mem.writeN load image, bootstat := Config.sha512 image, bootver := v, sysPc := some load }

/-- R419. -/
def execPackageReset (s : State) : Host.Outcome State Fault Refusal := .next s.boot

/-! ## Attestation (R421, R422) -/

/-- The clusters of a virtual device, as a mask. -/
def State.clusterMask (s : State) (v : Nat) : Nat :=
  laneBits ((List.range Config.numClusters).filter fun c => (s.cluster c).vdev == v)

/-- R422: the report for a nonce; `dev` is the virtual device field with its mask. -/
def State.attest (s : State) (nonce : List Byte) (v mask : Nat) : List Byte :=
  let body := (nonce ++ List.replicate 32 0).take 32 ++ (s.bootstat ++ List.replicate 64 0).take 64 ++ toBytes 8 s.bootver
    ++ (Config.sha512 (Config.identityKeys s.puf) ++ List.replicate 64 0).take 64 ++ toBytes 8 (Config.attestField v mask)
    ++ List.replicate 80 0
  body ++ Config.edSign s.puf body ++ Config.mlSign s.puf body

/-- R422: a report for the host, by a service that the system cores call (none runs in recovery). -/
def execAttestationRequest (vdev : Nat) (nonce : List (BitVec 8)) (s : State) : Host.Outcome State Fault Refusal :=
  .next { s with reply := if s.recovery then [] else s.attest nonce vdev (s.clusterMask vdev) }

/-! ## The Polrum port (R430) -/

/-- R19, R428: the frequencies of the 24 islands in kHz: the array and the core islands of the Span dies, the memory and the
fabric islands of the Pier dies. -/
def State.islands (s : State) : List Nat :=
  tab Config.numSpans s.freq ++ tab Config.numSpans (fun _ => 1000000)
    ++ tab Config.numPiers (fun d => 1000 * Config.memoryFreq d) ++ tab Config.numPiers (fun d => 1000 * (s.pier d).fabric)

/-- R430: temperatures of the sensors, module power and island frequencies, in the model's order (log 36). -/
def execReadTelemetry (s : State) : Host.Outcome State Fault Refusal :=
  .next { s with reply := (tab 128 (s.temps.get 0) ++ [s.power] ++ s.islands).flatMap (toBytes 4) }

/-- R430: a report with virtual device field 0xFF. -/
def execPolrumAttest (nonce : List (BitVec 8)) (s : State) : Host.Outcome State Fault Refusal :=
  .next { s with reply := s.attest nonce 0xFF 0 }

/-- R430: a slot is written; it counts at the next package reset. -/
def execWriteImageSlot (slot : Nat) (bytes : List (BitVec 8)) (s : State) : Host.Outcome State Fault Refusal :=
  .next (if slot < 2 then { s with flash := s.flash.writeN (slotBase slot) (bytes.take 33554432) } else s)

/-- R420, R430: the floor record is rewritten by an accepted image, never to a lower version. -/
def execRaiseFloor (bytes : List (BitVec 8)) (s : State) : Host.Outcome State Fault Refusal :=
  let head := toBytes 4 (numAt bytes 0 4) ++ List.replicate 28 0
  .next (if s.sysPc.isNone || decide (numAt bytes 0 4 < s.floor) then s
    else { s with flash := s.flash.writeN floorAt (head ++ s.floorMac head) })

/-- R430: every die is reset, and boots. -/
def execPolrumPackageReset (s : State) : Host.Outcome State Fault Refusal := .next s.boot

/-- R427, R430: the 64 entries of a Pier die's log, then ERRHEAD. -/
def execReadErrorLog (pier : Nat) (s : State) : Host.Outcome State Fault Refusal :=
  let d := s.pier pier
  let entries := (List.range 64).flatMap fun i => toBytes 8 (d.log.get (0, 0) i).1 ++ toBytes 8 (d.log.get (0, 0) i).2
  .next { s with reply := entries ++ toBytes 8 (d.logCount * 2 ^ 32 + d.logHead) }

/-! ## Heat (R429) -/

/-- A thermal entry in a Pier die's error log; its second word is a free value (log 4). -/
def State.heatLog (s : State) (pier code : Nat) : State :=
  { s.errorLog pier code (Config.logWord s.fresh) with fresh := s.fresh + 1 }

/-- R429: the hottest of the 16 sensors of a Span die. -/
def State.hottest (s : State) (span : Nat) : Nat :=
  (List.range 16).foldl (fun m k => max m (s.temps.get 0 (16 * span + k))) 0

/-- A sensor reads a temperature; there are 128. -/
def State.sense (s : State) (sensor temp : Nat) : State :=
  if sensor < 128 then { s with temps := s.temps.set sensor temp } else s

/-- R429: a sensor reads a temperature, and thermal control acts on the hottest one of its Span die: at 105 degrees the die's
array island goes down one step, to 0.5 GHz at least; at 100 or below it goes up one, to 1 GHz at most. -/
def execThermalStep (sensor reading : Nat) (s : State) : Host.Outcome State Fault Refusal :=
  let s := s.sense sensor reading
  let span := sensor / 16
  let temp := s.hottest span
  let f := s.freq span
  let to_ := if 105 ≤ temp then max 500000 (f - 62500) else if temp ≤ 100 then min 1000000 (f + 62500) else f
  .next (if to_ == f || decide (Config.numSpans ≤ span) then s
    else { s.heatLog (span / 2) 4 with arrayFreq := s.arrayFreq.set span to_ })

/-- R429: a sensor and the module power are read, the power as it has stood for a number of microseconds: at 115 degrees on
any sensor, or above 5,200 W for 10 ms, the package stops issuing. -/
def execThermalTrip (temp : Heat) (power : Draw) (s : State) : Host.Outcome State Fault Refusal :=
  let s := { s.sense temp.sensor temp.temp with power := power.watts }
  let hot := (List.range Config.numSpans).any fun k => decide (115 ≤ s.hottest k)
  .next (if hot || decide (5200 < power.watts ∧ 10000 ≤ power.us) then { s.heatLog 0 5 with stopped := true, alert := true } else s)

end Sys2Proof.Machine
end

