-- ==== Sys2Proof/Machine/Dispatch.lean ====
section
/-! DEFINITION. Machine/Dispatch.lean: the meaning of every instruction and event. -/

namespace Sys2Proof.Machine

open Sys2Proof

/-- One instruction or event of the part (opcode_table.json). -/
def exec (i : Instr) (s : State) : Host.Outcome State Fault Refusal :=
  match i with
  | .bundleFetch core => Sys2Proof.Machine.execBundleFetch core s
  | .fixedLatencyLanding core ctx => Sys2Proof.Machine.execFixedLatencyLanding core ctx s
  | .nopS => Sys2Proof.Machine.execNopS s
  | .add d a b => Sys2Proof.Machine.execAdd d a b s
  | .sub d a b => Sys2Proof.Machine.execSub d a b s
  | .addi d a xi => Sys2Proof.Machine.execAddi d a xi s
  | .mul d a b => Sys2Proof.Machine.execMul d a b s
  | .mulh d a b => Sys2Proof.Machine.execMulh d a b s
  | .mulhu d a b => Sys2Proof.Machine.execMulhu d a b s
  | .div d a b => Sys2Proof.Machine.execDiv d a b s
  | .divu d a b => Sys2Proof.Machine.execDivu d a b s
  | .rem d a b => Sys2Proof.Machine.execRem d a b s
  | .remu d a b => Sys2Proof.Machine.execRemu d a b s
  | .andS d a b => Sys2Proof.Machine.execAndS d a b s
  | .orS d a b => Sys2Proof.Machine.execOrS d a b s
  | .xorS d a b => Sys2Proof.Machine.execXorS d a b s
  | .andn d a b => Sys2Proof.Machine.execAndn d a b s
  | .andi d a xi => Sys2Proof.Machine.execAndi d a xi s
  | .ori d a xi => Sys2Proof.Machine.execOri d a xi s
  | .xori d a xi => Sys2Proof.Machine.execXori d a xi s
  | .shl d a b => Sys2Proof.Machine.execShl d a b s
  | .shr d a b => Sys2Proof.Machine.execShr d a b s
  | .sar d a b => Sys2Proof.Machine.execSar d a b s
  | .shli d a xi => Sys2Proof.Machine.execShli d a xi s
  | .shri d a xi => Sys2Proof.Machine.execShri d a xi s
  | .sari d a xi => Sys2Proof.Machine.execSari d a xi s
  | .clz d a => Sys2Proof.Machine.execClz d a s
  | .ctz d a => Sys2Proof.Machine.execCtz d a s
  | .popc d a => Sys2Proof.Machine.execPopc d a s
  | .extr d a b => Sys2Proof.Machine.execExtr d a b s
  | .extru d a b => Sys2Proof.Machine.execExtru d a b s
  | .ins d a b => Sys2Proof.Machine.execIns d a b s
  | .minS d a b => Sys2Proof.Machine.execMinS d a b s
  | .maxS d a b => Sys2Proof.Machine.execMaxS d a b s
  | .minu d a b => Sys2Proof.Machine.execMinu d a b s
  | .maxu d a b => Sys2Proof.Machine.execMaxu d a b s
  | .movi d xi => Sys2Proof.Machine.execMovi d xi s
  | .movhi d xi => Sys2Proof.Machine.execMovhi d xi s
  | .selP0P3 d a b p => Sys2Proof.Machine.execSelP0P3 d a b p s
  | .selP4P7 d a b p => Sys2Proof.Machine.execSelP4P7 d a b p s
  | .lea d a b h => Sys2Proof.Machine.execLea d a b h s
  | .cmp p c a b => Sys2Proof.Machine.execCmp p c a b s
  | .cmpi p c a xi => Sys2Proof.Machine.execCmpi p c a xi s
  | .pand p q r => Sys2Proof.Machine.execPand p q r s
  | .por p q r => Sys2Proof.Machine.execPor p q r s
  | .pxor p q r => Sys2Proof.Machine.execPxor p q r s
  | .pnot p q => Sys2Proof.Machine.execPnot p q s
  | .sfadd d a b => Sys2Proof.Machine.execSfadd d a b s
  | .sfmul d a b => Sys2Proof.Machine.execSfmul d a b s
  | .sfma d a b => Sys2Proof.Machine.execSfma d a b s
  | .sfcvt d a f g u => Sys2Proof.Machine.execSfcvt d a f g u s
  | .nopV => Sys2Proof.Machine.execNopV s
  | .vaddF32 d a b => Sys2Proof.Machine.execVaddF32 d a b s
  | .vsubF32 d a b => Sys2Proof.Machine.execVsubF32 d a b s
  | .vmulF32 d a b => Sys2Proof.Machine.execVmulF32 d a b s
  | .vfmaF32 d a b => Sys2Proof.Machine.execVfmaF32 d a b s
  | .vfmsF32 d a b => Sys2Proof.Machine.execVfmsF32 d a b s
  | .vmaxF32 d a b => Sys2Proof.Machine.execVmaxF32 d a b s
  | .vminF32 d a b => Sys2Proof.Machine.execVminF32 d a b s
  | .vabsF32 d a => Sys2Proof.Machine.execVabsF32 d a s
  | .vnegF32 d a => Sys2Proof.Machine.execVnegF32 d a s
  | .vaddBf16 d a b => Sys2Proof.Machine.execVaddBf16 d a b s
  | .vmulBf16 d a b => Sys2Proof.Machine.execVmulBf16 d a b s
  | .vfmaBf16 d a b => Sys2Proof.Machine.execVfmaBf16 d a b s
  | .vmaxBf16 d a b => Sys2Proof.Machine.execVmaxBf16 d a b s
  | .vminBf16 d a b => Sys2Proof.Machine.execVminBf16 d a b s
  | .vaddF16 d a b => Sys2Proof.Machine.execVaddF16 d a b s
  | .vmulF16 d a b => Sys2Proof.Machine.execVmulF16 d a b s
  | .vfmaF16 d a b => Sys2Proof.Machine.execVfmaF16 d a b s
  | .vmaxF16 d a b => Sys2Proof.Machine.execVmaxF16 d a b s
  | .vminF16 d a b => Sys2Proof.Machine.execVminF16 d a b s
  | .vaddI32 d a b => Sys2Proof.Machine.execVaddI32 d a b s
  | .vsubI32 d a b => Sys2Proof.Machine.execVsubI32 d a b s
  | .vmulI32 d a b => Sys2Proof.Machine.execVmulI32 d a b s
  | .vmaxI32 d a b => Sys2Proof.Machine.execVmaxI32 d a b s
  | .vminI32 d a b => Sys2Proof.Machine.execVminI32 d a b s
  | .vandI32 d a b => Sys2Proof.Machine.execVandI32 d a b s
  | .vorI32 d a b => Sys2Proof.Machine.execVorI32 d a b s
  | .vxorI32 d a b => Sys2Proof.Machine.execVxorI32 d a b s
  | .vandnI32 d a b => Sys2Proof.Machine.execVandnI32 d a b s
  | .vshlI32 d a b => Sys2Proof.Machine.execVshlI32 d a b s
  | .vshrI32 d a b => Sys2Proof.Machine.execVshrI32 d a b s
  | .vsarI32 d a b => Sys2Proof.Machine.execVsarI32 d a b s
  | .vcmpEqF32 d a b => Sys2Proof.Machine.execVcmpEqF32 d a b s
  | .vcmpLtF32 d a b => Sys2Proof.Machine.execVcmpLtF32 d a b s
  | .vcmpLeF32 d a b => Sys2Proof.Machine.execVcmpLeF32 d a b s
  | .vcmpEqI32 d a b => Sys2Proof.Machine.execVcmpEqI32 d a b s
  | .vcmpLtI32 d a b => Sys2Proof.Machine.execVcmpLtI32 d a b s
  | .vcmpLeI32 d a b => Sys2Proof.Machine.execVcmpLeI32 d a b s
  | .vsel d a b => Sys2Proof.Machine.execVsel d a b s
  | .vbcast d a => Sys2Proof.Machine.execVbcast d a s
  | .vmovs d a l => Sys2Proof.Machine.execVmovs d a l s
  | .vidx d a => Sys2Proof.Machine.execVidx d a s
  | .vcvt d a f g u => Sys2Proof.Machine.execVcvt d a f g u s
  | .vrcpF32 d a => Sys2Proof.Machine.execVrcpF32 d a s
  | .vrsqF32 d a => Sys2Proof.Machine.execVrsqF32 d a s
  | .vexp2F32 d a => Sys2Proof.Machine.execVexp2F32 d a s
  | .vlog2F32 d a => Sys2Proof.Machine.execVlog2F32 d a s
  | .vtanhF32 d a => Sys2Proof.Machine.execVtanhF32 d a s
  | .vsigF32 d a => Sys2Proof.Machine.execVsigF32 d a s
  | .vredAdd d a y => Sys2Proof.Machine.execVredAdd d a y s
  | .vredMax d a y => Sys2Proof.Machine.execVredMax d a y s
  | .vredMin d a y => Sys2Proof.Machine.execVredMin d a y s
  | .vscanAdd d a y => Sys2Proof.Machine.execVscanAdd d a y s
  | .vshufLo d n a b => Sys2Proof.Machine.execVshufLo d n a b s
  | .vshufHi d n a b => Sys2Proof.Machine.execVshufHi d n a b s
  | .nopM => Sys2Proof.Machine.execNopM s
  | .mpush p => Sys2Proof.Machine.execMpush p s
  | .mswap => Sys2Proof.Machine.execMswap s
  | .macc p n q => Sys2Proof.Machine.execMacc p n q s
  | .maccG n q a => Sys2Proof.Machine.execMaccG n q a s
  | .mdrain h n xi d f u => Sys2Proof.Machine.execMdrain h n xi d f u s
  | .mzero n f c => Sys2Proof.Machine.execMzero n f c s
  | .mcfg a => Sys2Proof.Machine.execMcfg a s
  | .mrun xs a l => Sys2Proof.Machine.execMrun xs a l s
  | .playedBeat core => Sys2Proof.Machine.execPlayedBeat core s
  | .nopL => Sys2Proof.Machine.execNopL s
  | .lds d a xi z => Sys2Proof.Machine.execLds d a xi z s
  | .ldsS d a xi z => Sys2Proof.Machine.execLdsS d a xi z s
  | .sts a b xi z => Sys2Proof.Machine.execSts a b xi z s
  | .ldv d a xi => Sys2Proof.Machine.execLdv d a xi s
  | .stv v a xi => Sys2Proof.Machine.execStv v a xi s
  | .ld d a xi z => Sys2Proof.Machine.execLd d a xi z s
  | .ldS d a xi z => Sys2Proof.Machine.execLdS d a xi z s
  | .lda d a xi z => Sys2Proof.Machine.execLda d a xi z s
  | .st a b xi z => Sys2Proof.Machine.execSt a b xi z s
  | .sta a b xi z => Sys2Proof.Machine.execSta a b xi z s
  | .loadCompletion core ctx k => Sys2Proof.Machine.execLoadCompletion core ctx k s
  | .tld w a b d => Sys2Proof.Machine.execTld w a b d s
  | .tldRingClaim core ctx => Sys2Proof.Machine.execTldRingClaim core ctx s
  | .tileLoadCompletion core ctx k => Sys2Proof.Machine.execTileLoadCompletion core ctx k s
  | .tst a b d => Sys2Proof.Machine.execTst a b d s
  | .tileStoreCompletion core ctx k => Sys2Proof.Machine.execTileStoreCompletion core ctx k s
  | .ldsc a c => Sys2Proof.Machine.execLdsc a c s
  | .amoAdd c o d a w => Sys2Proof.Machine.execAmoAdd c o d a w s
  | .amoAnd c o d a w => Sys2Proof.Machine.execAmoAnd c o d a w s
  | .amoOr c o d a w => Sys2Proof.Machine.execAmoOr c o d a w s
  | .amoXor c o d a w => Sys2Proof.Machine.execAmoXor c o d a w s
  | .amoMin c o d a w => Sys2Proof.Machine.execAmoMin c o d a w s
  | .amoMax c o d a w => Sys2Proof.Machine.execAmoMax c o d a w s
  | .amoXchg c o d a w => Sys2Proof.Machine.execAmoXchg c o d a w s
  | .amoCas c o d a w => Sys2Proof.Machine.execAmoCas c o d a w s
  | .amoReply core ctx k => Sys2Proof.Machine.execAmoReply core ctx k s
  | .phase a c k => Sys2Proof.Machine.execPhase a c k s
  | .phaseAcquireAtHome core ctx => Sys2Proof.Machine.execPhaseAcquireAtHome core ctx s
  | .phaseReleaseRegistration core ctx => Sys2Proof.Machine.execPhaseReleaseRegistration core ctx s
  | .acq c => Sys2Proof.Machine.execAcq c s
  | .rel c => Sys2Proof.Machine.execRel c s
  | .fence c => Sys2Proof.Machine.execFence c s
  | .nopC => Sys2Proof.Machine.execNopC s
  | .cpost a b d => Sys2Proof.Machine.execCpost a b d s
  | .cpostCompletion core ctx k => Sys2Proof.Machine.execCpostCompletion core ctx k s
  | .gather v a b => Sys2Proof.Machine.execGather v a b s
  | .scatter v a b => Sys2Proof.Machine.execScatter v a b s
  | .coll a b d => Sys2Proof.Machine.execColl a b d s
  | .tbinit a b => Sys2Proof.Machine.execTbinit a b s
  | .tbarr a => Sys2Proof.Machine.execTbarr a s
  | .tbexp a b => Sys2Proof.Machine.execTbexp a b s
  | .tbwait a b d => Sys2Proof.Machine.execTbwait a b d s
  | .parkApply cluster => Sys2Proof.Machine.execParkApply cluster s
  | .barrierUpdateArrival k => Sys2Proof.Machine.execBarrierUpdateArrival k s
  | .plwait a p d => Sys2Proof.Machine.execPlwait a p d s
  | .plread a d => Sys2Proof.Machine.execPlread a d s
  | .plcancel a => Sys2Proof.Machine.execPlcancel a s
  | .nxt a => Sys2Proof.Machine.execNxt a s
  | .pmovS o a => Sys2Proof.Machine.execPmovS o a s
  | .pmovV o v => Sys2Proof.Machine.execPmovV o v s
  | .pget d o => Sys2Proof.Machine.execPget d o s
  | .lddt n a d => Sys2Proof.Machine.execLddt n a d s
  | .lddtCompletion core ctx dt => Sys2Proof.Machine.execLddtCompletion core ctx dt s
  | .cbld c a => Sys2Proof.Machine.execCbld c a s
  | .cbst c a => Sys2Proof.Machine.execCbst c a s
  | .cbget d c => Sys2Proof.Machine.execCbget d c s
  | .cbput c v => Sys2Proof.Machine.execCbput c v s
  | .vpld e a => Sys2Proof.Machine.execVpld e a s
  | .mbld xs a n => Sys2Proof.Machine.execMbld xs a n s
  | .cbuDedup core ctx => Sys2Proof.Machine.execCbuDedup core ctx s
  | .cbuRemap core ctx => Sys2Proof.Machine.execCbuRemap core ctx s
  | .cbuPair core ctx => Sys2Proof.Machine.execCbuPair core ctx s
  | .cbuExpand core ctx => Sys2Proof.Machine.execCbuExpand core ctx s
  | .rcuRun core ctx => Sys2Proof.Machine.execRcuRun core ctx s
  | .htbBuild core ctx => Sys2Proof.Machine.execHtbBuild core ctx s
  | .nopB => Sys2Proof.Machine.execNopB s
  | .pbr n a => Sys2Proof.Machine.execPbr n a s
  | .pbri n xi => Sys2Proof.Machine.execPbri n xi s
  | .br n q g => Sys2Proof.Machine.execBr n q g s
  | .call n q g => Sys2Proof.Machine.execCall n q g s
  | .ret q g => Sys2Proof.Machine.execRet q g s
  | .pmark => Sys2Proof.Machine.execPmark s
  | .suspend => Sys2Proof.Machine.execSuspend s
  | .endB => Sys2Proof.Machine.execEndB s
  | .nopX => Sys2Proof.Machine.execNopX s
  | .trap xi => Sys2Proof.Machine.execTrap xi s
  | .reti => Sys2Proof.Machine.execReti s
  | .uret => Sys2Proof.Machine.execUret s
  | .crd d n => Sys2Proof.Machine.execCrd d n s
  | .cwr a n => Sys2Proof.Machine.execCwr a n s
  | .arrsave => Sys2Proof.Machine.execArrsave s
  | .arrrest => Sys2Proof.Machine.execArrrest s
  | .setpool a d => Sys2Proof.Machine.execSetpool a d s
  | .setpoolConversion core => Sys2Proof.Machine.execSetpoolConversion core s
  | .tlbinv a k => Sys2Proof.Machine.execTlbinv a k s
  | .cwb a k => Sys2Proof.Machine.execCwb a k s
  | .cinv a k => Sys2Proof.Machine.execCinv a k s
  | .wfe => Sys2Proof.Machine.execWfe s
  | .supervisorTrapEntry core ctx => Sys2Proof.Machine.execSupervisorTrapEntry core ctx s
  | .userInterruptEntry core ctx => Sys2Proof.Machine.execUserInterruptEntry core ctx s
  | .switchOnStall core => Sys2Proof.Machine.execSwitchOnStall core s
  | .switchQuantumExpiry core => Sys2Proof.Machine.execSwitchQuantumExpiry core s
  | .preemptionRequest cluster => Sys2Proof.Machine.execPreemptionRequest cluster s
  | .heavyPreemption core ctx => Sys2Proof.Machine.execHeavyPreemption core ctx s
  | .itemKill core ctx => Sys2Proof.Machine.execItemKill core ctx s
  | .timerExpiry cluster n => Sys2Proof.Machine.execTimerExpiry cluster n s
  | .noticeWrite cluster w => Sys2Proof.Machine.execNoticeWrite cluster w s
  | .cpreqWrite cluster w => Sys2Proof.Machine.execCpreqWrite cluster w s
  | .launchTake vdev q => Sys2Proof.Machine.execLaunchTake vdev q s
  | .recordCreate launch => Sys2Proof.Machine.execRecordCreate launch s
  | .recordPickup cluster => Sys2Proof.Machine.execRecordPickup cluster s
  | .recordAging cluster => Sys2Proof.Machine.execRecordAging cluster s
  | .recordSteal cluster => Sys2Proof.Machine.execRecordSteal cluster s
  | .dispenserBatchRequest cluster launch d => Sys2Proof.Machine.execDispenserBatchRequest cluster launch d s
  | .dispenserBatchReturn cluster launch => Sys2Proof.Machine.execDispenserBatchReturn cluster launch s
  | .dispenserExhaustion launch d => Sys2Proof.Machine.execDispenserExhaustion launch d s
  | .packetTake vdev q => Sys2Proof.Machine.execPacketTake vdev q s
  | .packetCompletion k => Sys2Proof.Machine.execPacketCompletion k s
  | .transformCompletion k => Sys2Proof.Machine.execTransformCompletion k s
  | .gatherRow k lane => Sys2Proof.Machine.execGatherRow k lane s
  | .scatterRow k lane => Sys2Proof.Machine.execScatterRow k lane s
  | .collectiveAnnounce k => Sys2Proof.Machine.execCollectiveAnnounce k s
  | .planeLanding k => Sys2Proof.Machine.execPlaneLanding k s
  | .relayForward k => Sys2Proof.Machine.execRelayForward k s
  | .cancelUpstream k => Sys2Proof.Machine.execCancelUpstream k s
  | .truncation k => Sys2Proof.Machine.execTruncation k s
  | .errorNotice k => Sys2Proof.Machine.execErrorNotice k s
  | .decoderSegmentDecode core => Sys2Proof.Machine.execDecoderSegmentDecode core s
  | .pageWalk core va => Sys2Proof.Machine.execPageWalk core va s
  | .pagePromotion pier => Sys2Proof.Machine.execPagePromotion pier s
  | .pageDemotion pier => Sys2Proof.Machine.execPageDemotion pier s
  | .migrationCopy k => Sys2Proof.Machine.execMigrationCopy k s
  | .epochHalving pier => Sys2Proof.Machine.execEpochHalving pier s
  | .allocatingWriteResume pier => Sys2Proof.Machine.execAllocatingWriteResume pier s
  | .extentReleaseRequest base len => Sys2Proof.Machine.execExtentReleaseRequest base len s
  | .forcedExtentRemoval base len => Sys2Proof.Machine.execForcedExtentRemoval base len s
  | .prefetchRequestServe pier => Sys2Proof.Machine.execPrefetchRequestServe pier s
  | .chunkAddWrite pier w => Sys2Proof.Machine.execChunkAddWrite pier w s
  | .chunkRsvWrite pier w => Sys2Proof.Machine.execChunkRsvWrite pier w s
  | .frameAddWrite pier w => Sys2Proof.Machine.execFrameAddWrite pier w s
  | .hwbaseWrite vdev w => Sys2Proof.Machine.execHwbaseWrite vdev w s
  | .configRegisterWrite block unit reg w => Sys2Proof.Machine.execConfigRegisterWrite block unit reg w s
  | .hostMemoryWrite vdev off bytes => Sys2Proof.Machine.execHostMemoryWrite vdev off bytes s
  | .hostMemoryRead fn off len => Sys2Proof.Machine.execHostMemoryRead fn off len s
  | .hostAtomicopFetchadd vdev off w => Sys2Proof.Machine.execHostAtomicopFetchadd vdev off w s
  | .hostAtomicopSwap vdev off w => Sys2Proof.Machine.execHostAtomicopSwap vdev off w s
  | .hostAtomicopCas vdev off cmp w => Sys2Proof.Machine.execHostAtomicopCas vdev off cmp w s
  | .causewayAccess port vdev op va bytes => Sys2Proof.Machine.execCausewayAccess port vdev op va bytes s
  | .packageReset => Sys2Proof.Machine.execPackageReset s
  | .virtualDeviceReset vdev => Sys2Proof.Machine.execVirtualDeviceReset vdev s
  | .clusterReassignment cluster vdev => Sys2Proof.Machine.execClusterReassignment cluster vdev s
  | .attestationRequest vdev nonce => Sys2Proof.Machine.execAttestationRequest vdev nonce s
  | .readTelemetry => Sys2Proof.Machine.execReadTelemetry s
  | .polrumAttest nonce => Sys2Proof.Machine.execPolrumAttest nonce s
  | .writeImageSlot slot bytes => Sys2Proof.Machine.execWriteImageSlot slot bytes s
  | .raiseFloor bytes => Sys2Proof.Machine.execRaiseFloor bytes s
  | .polrumPackageReset => Sys2Proof.Machine.execPolrumPackageReset s
  | .readErrorLog pier => Sys2Proof.Machine.execReadErrorLog pier s
  | .thermalStep sensor temp => Sys2Proof.Machine.execThermalStep sensor temp s
  | .thermalTrip temp power => Sys2Proof.Machine.execThermalTrip temp power s
  | .scaleQueueFill core => Sys2Proof.Machine.execScaleQueueFill core s
  | .writeBackArrival core pa => Sys2Proof.Machine.execWriteBackArrival core pa s
  | .systemCoreStore pa bytes => Sys2Proof.Machine.execSystemCoreStore pa bytes s
  | .extentGrant base len => Sys2Proof.Machine.execExtentGrant base len s

end Sys2Proof.Machine
end

