-- ==== Sys2Proof/Machine/Run.lean ====
section
/-! DEFINITION. Machine/Run.lean: issuing a bundle, a core's turn, the work that ends by itself, and the order of moves
(R4-R8, R38-R54, R342, R380, R381; log 12). -/

namespace Sys2Proof.Machine

open Sys2Proof

/-! ## Issuing a bundle -/

/-- R53, R6, R346: the tick of a bundle: landings are performed, then the sources are fixed; the pc moves to the
next bundle. -/
def State.begin_ (s : State) : State :=
  let n := s.cur
  let j := s.j
  let old := s.mycore
  let s := s.updCore n fun c => c.tick j
  let s := s.updMe fun x => { x.count 0x100 1 with
    pc := s.issue.next, stall := none, held := x.held.map fun h => { h with ticks := h.ticks + 1 },
    preqTicks := if x.preq && x.level == 0 then x.preqTicks + 1 else x.preqTicks }
  { s with issue := { s.issue with before := some old, rd := some s.me } }

/-- R37: the position and the S and V units after a slot; a played beat takes none. -/
def Issue.after (u : Issue) (i : Instr) : Issue :=
  match i.opcode with
  | .none => u
  | .some (c, _) => { u with
      pos := u.pos + 1, nS := if c == 0 then u.nS + 1 else u.nS, nV := if c == 1 then u.nV + 1 else u.nV }

/-- R4, R40: slots in order; the first that voids the bundle ends it. -/
def State.runSlots : List Instr → State → Host.Outcome State Fault Refusal
  | [], s => .next s
  | i :: t, s =>
    match exec i { s with issue := { s.issue with slots := t } } with
    | .next u =>
      if u.issue.void.isSome then .next u
      else State.runSlots t { u with issue := u.issue.after i }
    | .fault r => .fault r
    | .refused r => .refused r

/-- R137: the beat of an open play issues where the M slot would. -/
def withBeat (n : Nat) (playing : Bool) (is_ : List Instr) : List Instr :=
  if !playing then is_
  else
    let early := fun (i : Instr) => match i.opcode with
      | some (c, _) => decide (c < 2)
      | none => false
    is_.takeWhile early ++ .playedBeat n :: is_.dropWhile early

/-- The request is an end. -/
def Ctl.ends : Ctl → Bool
  | .endItem _ => true
  | _ => false

/-- R85: a producer of a bundle that ends its item, whose outcome is open and cannot be known at once. -/
def State.endHeld (t : State) (p : Prod) : Bool :=
  p.dst != 0 && p.target == 0 && (match p.work with
    | .post o => t.postHeld t.cur o p.done
    | _ => t.openEnd t.cur t.j p)

/-- R85, R380: the slots of a bundle that ends its item have run, and one of its producers fails: the deferred fault that its
register raises, so that the bundle has no effect; while it cannot be known whether one will, the bundle waits (log 91). -/
def State.endVoid (t : State) : Option Void :=
  if !(t.issue.ctl.ends || t.me.pend.ends) then none
  else
    let u := t.tstDue
    (u.failedCtx t.cur t.j).faultAtEnd.or (if u.me.prods.any u.endHeld then some (.stall .mem) else none)

/-- R85: the posts of a context that ends reach their queues with the bundle, as they were judged: nothing of it fails later. -/
def State.postsNow (s : State) (n j : Nat) : Nat → State
  | 0 => s
  | f + 1 =>
    match (s.ctx n j).prods.findIdx? fun p => match p.work with
      | .post o => !s.postHeld n o p.done
      | _ => false with
    | none => s
    | some k =>
      match execCpostCompletion n j k s with
      | .next t => t.postsNow n j f
      | _ => s

/-- The violations of the producers that fail a bundle (R399). -/
def State.logEnd (f t : State) : State :=
  let u := t.tstDue
  u.me.prods.foldl (fun f p => f.logViol f.cur f.j (u.failingViol u.cur u.j p)) f

/-- The slots of a checked bundle: the state after them, or why it is void and the state in which it is. -/
def State.attempt (f : State) : Host.Outcome (State × Option Void) Fault Refusal :=
  let is_ := f.issue.slots
  let b := f.begin_
  match b.precheck is_ with
  | .error v => .next (f, some v)
  | .ok _ =>
    match State.runSlots (withBeat f.cur (f.mycore.playing f.j) is_) b with
    | .next t =>
      match t.issue.void, t.endVoid with
      | some v, _ => .next (f, some v)
      | none, some v => .next (t.logEnd f, some v)
      | none, none => .next (t, none)
    | .fault r => .fault r
    | .refused r => .refused r

/-- No bundle is being issued any more. -/
def State.rest (s : State) : State := { s with issue := Issue.none }

/-- A cycle of a core in which it issues nothing (R321). -/
def State.idleCycle (s : State) (n : Nat) : State := s.idle n 1

/-- R342: after a cycle without issue the selector looks for another context. -/
def State.seek (s : State) (n : Nat) : State :=
  match (s.core n).nextReady with
  | some j => if ((s.core n).ctx (s.core n).cur).ready then s else s.switchTo n j
  | none => s

/-- R380: a void bundle has had no effect; its trap has been taken, or its context stalls. -/
def State.voided (s : State) (n j : Nat) (v : Void) : State × Bool :=
  match v with
  | .fetch =>
    let s := s.updCtx n j fun x => { x with stall := none }
    ((s.idleCycle n).updCtx n j (fun x => x.count 0x109 1) |>.rest, false)
  | .trap _ =>
    (((s.updCore n fun c => let c := c.unclaim j; c.setCtx j { c.ctx j with claimWait := none }).idleCycle n).rest, true)
  | _ => (((s.idleCycle n).seek n).rest, false)

/-- R322: the place of a cause among those that hold in one cycle. -/
def Stall.rank : Stall → Nat
  | .wfe => 0 | .mem => 1 | .unit => 2 | .ring => 3 | .scale => 4 | .dec => 5 | .fe => 6

/-- The stall that a void bundle waits in. -/
def Void.cause : Void → Option Stall
  | .stall c => some c
  | .claim _ _ _ => some .ring
  | .trap _ | .fetch => none

/-- R322: of the causes that stall the slots of a bundle, each slot judged by itself, the first. -/
def State.firstCause (b : State) (is_ : List Instr) (c : Stall) : Stall :=
  is_.foldl (fun c i => match exec i { b with issue := { b.issue with slots := [] } } with
    | .next u => match u.issue.void.bind Void.cause with
      | some d => if d.rank < c.rank then d else c
      | none => c
    | _ => c) c

/-- The void of a stalled bundle, its cycle counted in the first cause that holds (R322). -/
def State.stalled (f : State) (v : Void) : State :=
  let t := f.void v
  match v.cause with
  | none => t
  | some c =>
    let is_ := withBeat f.cur (f.mycore.playing f.j) f.issue.slots
    let d := f.begin_.firstCause is_ c
    t.updMe fun x => { x with stall := some d }

/-- R6, R96, R342, R428: a bundle has issued: its boundary, its cycles, which count for a context that leaves there too,
and the quantum. -/
def State.issued (s : State) (n : Nat) : State :=
  let k := s.bundleCycles
  let j := s.j
  let held := s.issue.rd.any fun x => x.held.isSome
  let s := s.boundary
  let s := if (s.ctx n j).pend.ends then s.postsNow n j (s.ctx n j).prods.length else s
  let s := (s.issueCycles n j k).settlePlanes n
  let s := if held && (s.ctx n j).held.isNone then s.updCtx n j fun x => x.count 0x101 k else s
  let other := (s.core n).nextReady.isSome
  let s := s.updCore n fun c => if other then { c with run := c.run + k } else c
  (s.updMe fun x => if x.waiting then { x with stall := some .wfe } else x).rest

/-- The current context's next bundle is offered: the state after it, and whether it issued or trapped. -/
def State.offer (s : State) : Host.Outcome (State × Bool) Fault Refusal :=
  let n := s.cur
  let j := s.j
  let f := s.fetch
  match f.issue.void with
  | some v => .next (f.voided n j v)
  | none =>
    match f.attempt with
    | .next (t, none) => .next (t.issued n, true)
    | .next (f, some v) =>
      let t := f.stalled v
      .next (t.voided n j (t.issue.void.getD v))
    | .fault r => .fault r
    | .refused r => .refused r

/-! ## A core's turn -/

/-- The outcome's state, or the one given. -/
def outcomeOr (s : State) : Host.Outcome State Fault Refusal → State
  | .next t => t
  | _ => s

/-- The event that ends the operation of a unit (R143). -/
def UnitOp.event (o : UnitOp) (n : Nat) : List Instr :=
  match o.trig with
  | 0x20 => [.cbuDedup n o.ctx]
  | 0x21 => [.cbuRemap n o.ctx]
  | 0x22 => [.cbuPair n o.ctx]
  | 0x23 => [.cbuExpand n o.ctx]
  | 0x50 => [.rcuRun n o.ctx]
  | 0x90 => [.htbBuild n o.ctx]
  | _ => []

def Core.unitEvents (c : Core) (n : Nat) : List Instr := c.unitOps.flatMap fun u => match u.2 with
  | none => []
  | some o => o.event n

/-- R341, R83-R90, R96: what a core's contexts do at the start of a turn: killed items leave, requests whose waits are
over are carried out, and a context in wfe whose event flag is set goes on. -/
def State.refreshCtx (s : State) (n j : Nat) : State :=
  let s := if (s.ctx n j).killed then outcomeOr s (execItemKill n j s) else s
  let x := s.ctx n j
  let s := if x.pend != .none && !s.mustWait n j x.pend then s.carry n j x.pend else s
  let x := s.ctx n j
  if x.waiting && x.ev then s.setCtx n j { x with waiting := false, ev := false, stall := none } else s

/-- Something is due at the context's boundary. -/
def State.somethingDue (s : State) (n j : Nat) : Bool :=
  let x := s.ctx n j
  (x.interruptDue.isSome || x.userDue) && !(s.core n).midPlay j || s.heavyDue n j

/-- R322, R342: what a stalled context that is not current waits for now: none where it would go on. -/
def State.stallNow (s : State) (n j : Nat) : Option Stall :=
  let x := s.ctx n j
  if s.somethingDue n j then none
  else if x.waiting then x.stall
  else match (s.updCore n fun c => { c with cur := j }).offer with
    | .next (_, true) => none
    | .next (t, false) => (t.ctx n j).stall
    | _ => x.stall

/-- R322, R342: stalled contexts whose reason has passed are ready again; the cause of the others is judged anew. -/
def State.wake (s : State) (n j : Nat) : State :=
  if (s.core n).cur != j && (s.ctx n j).stall.isSome && (s.ctx n j).pend == .none then
    let c := s.stallNow n j
    s.updCtx n j fun x => { x with stall := c }
  else s

/-- R201: the unit operations of a core whose cycles are over end. -/
def State.unitsDone (s : State) (n : Nat) : State :=
  ((s.core n).unitEvents n).foldl (fun s i => outcomeOr s (exec i s)) s

def State.refresh (s : State) (n : Nat) : State :=
  let s := s.unitsDone n
  let all := List.range Config.contexts
  all.foldl (fun s j => s.wake n j) (all.foldl (fun s j => s.refreshCtx n j) s)

/-- A cycle in which the current context waits for c. -/
def State.waitCycle (s : State) (n j : Nat) (c : Stall) : State :=
  let s := (s.updCtx n j fun x => { x with stall := some c }).idleCycle n
  s.updCtx n j fun x => { x with stall := none }

/-- R342, R353: the current context, still stalled, gives way to a ready one before its user-level interrupt is taken. -/
def State.yields (s : State) (n j : Nat) : Bool :=
  let x := s.ctx n j
  x.stall.isSome && (s.core n).nextReady.isSome && x.interruptDue.isNone && !s.heavyDue n j && (match s.offer with
    | .next (_, issued) => !issued
    | _ => false)

/-- R381: what is due at the boundary is taken, in its order; an interrupt waits for a unit operation (R202). -/
def State.takeDue (s : State) (n j : Nat) : State :=
  let x := s.ctx n j
  let mid := (s.core n).midPlay j
  if (x.interruptDue.isSome || x.userDue && !s.heavyDue n j) && !mid && (s.core n).unitBusy j then s.waitCycle n j .unit
  else if x.interruptDue.isSome && !mid then (outcomeOr s (execSupervisorTrapEntry n j s)).idleCycle n
  else if s.heavyDue n j then (outcomeOr s (execHeavyPreemption n j s)).idleCycle n
  else (outcomeOr s (execUserInterruptEntry n j s)).idleCycle n

/-- A turn of core n: the state after it, and whether the core did something. -/
def State.turn (s : State) (n : Nat) : Host.Outcome (State × Bool) Fault Refusal :=
  let s := ({ s with cur := n, issue := Issue.none }).refresh n
  let c := s.core n
  let j := c.cur
  let x := s.me
  if decide (Config.quantum ≤ c.run) && c.nextReady.isSome then .next (outcomeOr s (execSwitchQuantumExpiry n s), true)
  else if x.held.isNone then .next ((s.idleCycle n).seek n, c.nextReady.isSome)
  else if x.pend != .none then .next ((s.idleCycle n).seek n, c.nextReady.isSome)
  else if x.killed then .next ((s.idleCycle n).seek n, c.nextReady.isSome)
  else if s.somethingDue n j then
    .next (if s.yields n j then outcomeOr s (execSwitchOnStall n s) else s.takeDue n j, true)
  else if x.waiting then .next ((s.idleCycle n).seek n, c.nextReady.isSome)
  else s.offer

/-! ## Work that ends by itself (log 12) -/

/-- The event that completes a variable producer. -/
def prodEvent (n j k : Nat) (p : Prod) : List Instr :=
  match p.work with
  | .load _ => [.loadCompletion n j k]
  | .amo _ => [.amoReply n j k]
  | .tile o => if o.store then [.tileStoreCompletion n j k] else [.tileLoadCompletion n j k]
  | .post _ => [.cpostCompletion n j k]
  | .lddt dt _ _ => [.lddtCompletion n j dt]
  | .setpool => [.setpoolConversion n]
  | .tbwait _ _ _ _ | .plane _ _ | .pget _ => []

/-- The events of a context. -/
def ctxEvents (n j : Nat) (x : Ctx) : List Instr :=
  (x.prods.zipIdx.flatMap fun p => prodEvent n j p.2 p.1)
    ++ (if x.phaseRel.isEmpty then [] else [.phaseReleaseRegistration n j])
    ++ (if !x.phaseAcq.isEmpty then [.phaseAcquireAtHome n j] else [])
    ++ (if x.claimWait.isSome then [.tldRingClaim n j] else [])

/-- The events of a core. -/
def coreEvents (n : Nat) (c : Core) : List Instr :=
  (c.ctxs.flatMap fun e => ctxEvents n e.1 e.2)
    ++ c.unitEvents n
    ++ (if c.scalesIn.isEmpty then [] else [.scaleQueueFill n])
    ++ (if c.decodes.isSome then [.decoderSegmentDecode n] else [])

/-- The events of work outside the cores: engines, collectives, barriers, the scheduler, migrations. -/
def State.packageEvents (s : State) : List Instr :=
  (if s.barMsgs.isEmpty then [] else [.barrierUpdateArrival 0])
    ++ (s.clusters.flatMap fun c => if c.2.parked.any (fun k => !k.applied) then [.parkApply c.1] else [])
    ++ (s.gathers.zipIdx.flatMap fun g => (if g.1.todo.isEmpty then [0] else g.1.todo).map fun l =>
        if g.1.scatter then .scatterRow g.2 l else .gatherRow g.2 l)
    ++ ((List.range s.packets.length).flatMap fun k => [.packetCompletion k, .transformCompletion k])
    ++ ((List.range s.parties.length).map fun k => .collectiveAnnounce k)
    ++ (if s.parties.isEmpty then [] else [.planeLanding 0, .relayForward 0])
    ++ (if s.cancels.isEmpty then [] else [.cancelUpstream 0])
    ++ (if s.truncs.isEmpty then [] else [.truncation 0])
    ++ (if s.notices.isEmpty then [] else [.errorNotice 0])
    ++ ((List.range s.migrations.length).map fun k => .migrationCopy k)
    ++ (s.vdevs.flatMap fun v => (v.2.cqtab.map fun q => .packetTake v.1 q.1) ++ v.2.lqtab.map fun q => .launchTake v.1 q.1)
    ++ (s.launches.flatMap fun l => if l.2.ended then [] else
        .recordCreate l.1 :: ((s.clusters.flatMap fun c => (List.range l.2.disps.length).flatMap fun d =>
          [.dispenserBatchRequest c.1 l.1 d, .dispenserBatchReturn c.1 l.1])
          ++ (List.range l.2.disps.length).map fun d => .dispenserExhaustion l.1 d))
    ++ (s.clusters.flatMap fun c =>
        .recordPickup c.1 :: .recordSteal c.1 :: (if c.2.lists.all (fun l => l.2.isEmpty) then []
          else [.recordAging c.1, .preemptionRequest c.1]))
    ++ ((List.range 4).flatMap fun p =>
        [.pagePromotion p, .pageDemotion p, .allocatingWriteResume p, .prefetchRequestServe p])

/-- The first of these events, numbered from k, that changes the machine: its number, and the state it leaves. -/
def State.firstEvent (s : State) (k : Nat) : List Instr → Option (Nat × State)
  | [] => none
  | i :: t =>
    match exec i s with
    | .next u => if u == s then s.firstEvent (k + 1) t else some (k, u)
    | _ => s.firstEvent (k + 1) t

/-- The cores that hold a record, from the one after n on. -/
def State.busyCores (s : State) (n : Nat) : List Nat :=
  let busy := (s.cores.filter fun c => c.2.ctxs.any fun e => e.2.held.isSome).map (·.1)
  busy.filter (fun m => decide (n < m)) ++ busy.filter fun m => decide (m ≤ n)

/-! ## A move of the machine -/

/-- Bundles a core issues in a row before other work has its chance. -/
def burstMax : Nat := 64

/-- R183, R316: the plwaits of every core whose counters have been written so that their conditions hold; and the writes of
hardware whose pages have stopped migrating (R268). -/
def State.settleAll (s : State) : State :=
  let s := s.cores.foldl (fun s c => s.settlePlanes c.1) s
  s.hwRetry 0 s.hwq.length

/-- A core, and the address of one of its L1 lines with written bytes of a migrating page, which holds a pin (R266). -/
def State.pinLine (s : State) : Option (Nat × Nat) :=
  s.migrations.findSome? fun m => s.cores.findSome? fun c =>
    (c.2.l1.find? fun l => decide (m.old ≤ l.pa * 512 ∧ l.pa * 512 < m.old + 65536) && l.bytes.any fun b => b.2.written).map
      fun l => (c.1, l.pa * 512)

/-- The next work that ends by itself goes on, a line of a migrating page written back first; once all of it has had its
chance the next core has the move. -/
def State.others (s : State) : State :=
  let s := s.outRetry [] s.waitq
  match s.pinLine with
  | some l => outcomeOr s (execWriteBackArrival l.1 l.2 s)
  | none =>
  match s.firstEvent s.served (((s.cores.flatMap fun c => coreEvents c.1 c.2) ++ s.packageEvents).drop s.served) with
  | some u => { u.2.settleAll with served := u.1 + 1 }
  | none => { s with served := 0, burst := 0, cur := (s.busyCores s.cur).headD s.cur }

/-- The current core's turn; other work goes on where it issues nothing, and after many bundles in a row. -/
def State.auto (s : State) : Host.Outcome State Fault Refusal :=
  if burstMax ≤ s.burst then .next s.others
  else match s.turn s.cur with
    | .next (t, true) => .next { t with burst := t.burst + 1 }
    | .next (t, false) => .next t.others
    | .fault r => .fault r
    | .refused r => .refused r

/-- A turn of the core named by the agenda. -/
def State.coreMove (s : State) (n : Nat) : Host.Outcome State Fault Refusal :=
  if Config.numCores ≤ n then .next s
  else if s.stopped then .next (s.idleCycle n)
  else match s.turn n with
    | .next (t, _) => .next t
    | .fault r => .fault r
    | .refused r => .refused r

/-- One move: the agenda's next, or, where it is empty, the machine's own (log 12). -/
def State.advance (s : State) : Host.Outcome State Fault Refusal :=
  match s.agenda with
  | .event i :: t =>
    match exec i { s with agenda := t } with
    | .next u => .next u.settleAll
    | r => r
  | .core n :: t => ({ s with agenda := t }).coreMove n
  | [] => if s.stopped then .fault .packageStopped else s.auto

/-! ## An instruction placed where the next one is fetched -/

/-- The bundle of four words that holds one slot word among nops, in class order (R38, R43). -/
def bundleOf (w : Nat) : List Nat :=
  match fld w 30 28 with
  | 0 => [w, 0x10000000, 0x20000000, 0xD0000000]
  | 1 => [0, w, 0x20000000, 0xD0000000]
  | 5 => [0, 0, 0x10000000, w + 2 ^ 31]
  | 6 => [0, 0x10000000, 0x50000000, w + 2 ^ 31]
  | _ => [0, 0x10000000, w, 0xD0000000]

/-- Four words in device memory at virtual address 0x1000 of virtual device 0, whose first gigabyte is mapped to physical
address 0 for every access. -/
def State.withBundle (s : State) (ws : List Nat) : State :=
  let m := s.mem.writeN 0x1000 (ws.flatMap (toBytes 4))
  let m := m.writeN 0x10000 (toBytes 8 0x20001)
  let m := m.writeN 0x20000 (toBytes 8 0x3F)
  ({ s with mem := m }).updVdev 0 fun d => { d with ptbase := 0x10001 }

/-- Context 0 of core 0 is at the boundary before the bundle at 0x1000, with a record. -/
def State.atBundle (s : State) : State :=
  let c := s.core 0
  let x := { c.ctx 0 with
    held := some ⟨0, 0, 0, 0, 0, 0, 0, 0, 0⟩, pc := 0x1000, pend := .none, stall := none, waiting := false, killed := false }
  let t := s.setCore 0 ({ c with cur := 0, run := 0, play := none }.setCtx 0 x)
  { t with cur := 0, agenda := [], burst := 0 }

end Sys2Proof.Machine
end

