-- ==== Sys2Proof/Machine/Step.lean ====
section
/-! DEFINITION. Machine/Step.lean: one step of the machine, and an instruction placed where it fetches. -/

namespace Sys2Proof.Machine

open Sys2Proof

/-- One step: the agenda's next move, or a turn of the current core (log 12). -/
def step (s : State) : Host.Outcome State Fault Refusal := s.advance

/-- The state with the instruction of nbits bits stored where step fetches (log 41). -/
def State.withFetchWord (s : State) (nbits w : Nat) : State :=
  (s.withBundle (bundleOf (w % 2 ^ nbits % 2 ^ 31))).atBundle

end Sys2Proof.Machine
end

