-- ==== Sys2Proof/Safety.lean ====
section
/-! DEFINITION. Safety.lean: what counts as a safe run, and the words the statements are made in. -/

namespace Sys2Proof.Machine

open Sys2Proof

/-- Every memory of the machine is in canonical form. -/
def State.memOk (s : State) : Bool :=
  s.mem.wf && s.flash.wf && s.cores.all (fun c => c.2.pool.wf) && s.clusters.all fun c => c.2.csram.wf

/-- A run of k steps that meets no fault. -/
def Safe (k : Nat) (s : State) : Prop := ∀ f, Host.Core.run Sys2Proof.core k s ≠ .fault f

/-- t is s but for landings put in flight by the issuing context: every register, every flag, every special register
and every byte of memory is as it was, and nothing of another context, core or unit has changed. -/
def OnlyLands (s t : State) : Prop :=
  (∃ fs, t.me = { s.me with flights := s.me.flights ++ fs }) ∧
  { t.mycore with ctxs := [] } = { s.mycore with ctxs := [] } ∧ { t with cores := [] } = { s with cores := [] } ∧
  (∀ j, j ≠ s.j → t.ctx s.cur j = s.ctx s.cur j) ∧ (∀ n, n ≠ s.cur → t.core n = s.core n) ∧
  (∀ a, t.mycore.pool.read a = s.mycore.pool.read a) ∧ (∀ a, t.mem.read a = s.mem.read a)

/-- k ticks of context j in which its bundles schedule nothing (R6, R53). -/
def Core.ticks (c : Core) (j : Nat) : Nat → Core
  | 0 => c
  | k + 1 => (c.tick j).ticks j k

/-- The array is the issuing context's own, at user level (R116). -/
def State.ownsArray (s : State) : Bool := s.me.level == 0 && s.mycore.owner == some (ctxNum s.cur s.j)

/-- A scratchpad range an aligned access of the issuing core may use, with no conversion running (R150, R229). -/
def State.scratchOk (s : State) (at_ n align : Nat) : Bool :=
  at_ % align == 0 && decide (at_ + n ≤ s.mycore.spsz) && s.mycore.setpool.isNone

/-- Nothing of the issuing context holds back a memory access or an ordering slot (R157, R160). -/
def State.quiet (s : State) : Bool := s.rd.storeFault.isNone && s.me.phaseAcq.isEmpty

/-- The local window of 4 MB of the issuing core is off, or n bytes from va lie outside it (R225). -/
def State.outsideWindow (s : State) (va n : Nat) : Bool :=
  let w := bits s.mycore.lwbase 51 21 * 2 ^ 21
  !bit s.mycore.lwbase 0 || decide (va + n ≤ w ∨ w + 2 ^ 22 ≤ va)

/-- The aligned device address va goes to device memory: it lies outside the local window (R225), and its page does not
migrate (R268). -/
def State.deviceOk (s : State) (va n : Nat) : Bool :=
  va % n == 0 && s.outsideWindow va n && decide (va + n ≤ 2 ^ 64)
    && !s.moving (s.tlbs s.cur) (s.vdevOf s.cur) va n

/-- No uncorrectable error waits to be found, at a home or in an L1 (R235, R258). -/
def State.errorFree (s : State) : Bool := s.upset.isEmpty && s.cores.all fun c => c.2.l1upset.isEmpty

/-! ## The bytes that engines move -/

/-- No byte of device memory is lost or poisoned, and no error waits to be found (R235, R256, R258). -/
def State.intact (s : State) : Bool := s.errorFree && s.poison.isEmpty && s.removed.isEmpty && s.lost.isEmpty

/-- The physical address of an access through translations held (R176, R266). -/
def physOf (e : Eng) (va : Nat) : Option Nat :=
  (tlbFind e.tlb e.vdev va).map fun t => fld t.pte.toNat 51 12 * 4096 + (va - t.va)

/-- Translations of whole 64 KB pages are held for every one of the addresses, and allow the access (R176, R266). -/
def State.reaches (s : State) (e : Eng) (a : Acc) (vas : List (Option Nat)) : Bool :=
  bit (s.vdev e.vdev).ptbase 0 && e.tlb.all (fun t => t.va % 65536 == 0 && t.size % 65536 == 0)
    && vas.all fun x => x.all fun va => decide (va < 2 ^ 52)
      && (tlbFind e.tlb e.vdev va).any fun t => !denied t.pte.toNat a e.user

/-- The device address of every byte of the elements at some coordinates, none outside the extents (R173, R178). -/
def Handle.spots (h : Handle) (cs : List (List Nat)) : List (Option Nat) :=
  cs.flatMap fun c => tab h.esz fun i => (h.elem c).map (· + i)

/-- The coordinates of the elements of a row (R178). -/
def Handle.rowCoords (h : Handle) (base len dim c : Nat) : List (List Nat) :=
  tab (h.rowLen base len) fun k => tab 5 fun d => if d == 0 then base + k else if d == dim then c else 0

/-- The bytes that memory, or the pad value, gives those elements. -/
def State.spotBytes (s : State) (e : Eng) (h : Handle) (cs : List (List Nat)) : List Byte :=
  (h.spots cs).zipIdx.map fun x => match x.1.bind (physOf e) with
    | some pa => s.mem.read pa
    | none => nth 0 (toBytes h.esz h.pad) (x.2 % h.esz)

/-- The writes, in order, of bytes to those elements; those outside the extents are not written. -/
def spotWrites (e : Eng) (h : Handle) (cs : List (List Nat)) (bs : List Byte) : List (Nat × Byte) :=
  ((h.spots cs).zip bs).filterMap fun x => (x.1.bind (physOf e)).map fun pa => (pa, x.2)

/-- What the last of some writes to a place leaves there. -/
def lastWrite {α β : Type} [BEq α] (l : List (α × β)) (a : α) : Option β := (l.reverse.find? fun w => w.1 == a).map (·.2)

/-- R24: the device address of the byte that holds plane k of an element of a BPN8 tensor, and the bit. -/
def Handle.planeSpot (h : Handle) (c : List Nat) (k : Nat) : Option (Nat × Nat) :=
  (h.bitAt c).map fun x => (x.1 + h.planeBytes * k, x.2)

/-- R24: the element at a coordinate of a BPN8 tensor, plane 0 its most significant bit; the pad value outside. -/
def State.planeByte (s : State) (e : Eng) (h : Handle) (c : List Nat) : Byte :=
  match h.planeSpot c 0 with
  | none => BitVec.ofNat 8 h.pad
  | some _ => BitVec.ofNat 8 ((tab 8 fun k => match h.planeSpot c k with
    | some x => ((physOf e x.1).map fun pa => (s.mem.read pa).toNat / 2 ^ x.2 % 2 * 2 ^ (7 - k)).getD 0
    | none => 0).sum)

/-- The bits, in order, that bytes written to elements of a BPN8 tensor set, the zero padding of their planes before them
(R24): physical address and bit, and value. -/
def planeWrites (e : Eng) (h : Handle) (cs : List (List Nat)) (bs : List Byte) : List ((Nat × Nat) × Bool) :=
  ((h.padBits cs).filterMap fun b => (physOf e b.1).map fun pa => ((pa, b.2), false)) ++ (cs.zip bs).flatMap fun x => (List.range 8).filterMap fun k =>
    (h.planeSpot x.1 k).bind fun y => (physOf e y.1).map fun pa => ((pa, y.2), x.2.toNat / 2 ^ (7 - k) % 2 == 1)

/-- The device addresses of the bytes of those planes. -/
def Handle.planeSpots (h : Handle) (cs : List (List Nat)) : List (Option Nat) :=
  cs.flatMap fun c => tab 8 fun k => (h.planeSpot c k).map (·.1)

/-- Those addresses, and those of the padding of the planes, which a write sets as well. -/
def Handle.planeSpotsPadded (h : Handle) (cs : List (List Nat)) : List (Option Nat) :=
  h.planeSpots cs ++ (h.padBits cs).map fun b => some b.1

/-- The current core's turn reaches the offer of its current context's next bundle (R342, R381). -/
def State.mayOffer (s : State) : Bool :=
  let c := s.mycore
  let x := s.me
  !(decide (Config.quantum ≤ c.run) && c.nextReady.isSome) && x.held.isSome && x.pend == .none
    && !x.killed && !s.somethingDue s.cur s.j && !x.waiting

/-- The byte core n reads at a physical address: its L1's where it holds one, else memory's (R233, R235). -/
def State.sees (s : State) (n a : Nat) : Byte :=
  match ((s.core n).l1Line a).bind fun l => l.bytes.find? fun b => b.1 == a % 512 with
  | some b => b.2.val
  | none => s.mem.read a

/-- Core n's L1 holds a written byte of a physical address (R235). -/
def State.holdsWritten (s : State) (n a : Nat) : Bool :=
  (s.core n).l1.any fun l => l.pa == a / 512 && l.bytes.any fun b => b.2.written && b.1 == a % 512

/-- A producer completes into the live register it names (R54, R204). -/
def Prod.live (p : Prod) (x : Ctx) : Bool := p.target == 0 && p.shadow == x.shadowed p.dst

/-- Register c of a context is full and holds w; s0 holds nothing (R203). -/
def Ctx.holds (x : Ctx) (c : Nat) (w : Word) : Prop := c ≠ 0 → x.regS c = w ∧ x.feS c = .full

/-- A beat has issued in the bundle: MBEATS counts it (R321), and its cycles are the array's (R428). -/
def State.beatCounted (s : State) : State :=
  { s.updMe (fun x => x.count 0x10F 1) with issue := { s.issue with beat := true } }

/-- R108: Combine of the block of 2^k lanes from lane lo, the lower half on the left. -/
def block (f : Nat → Nat → Nat × FlagSet) (v : Lanes) : Nat → Nat → Nat
  | 0, lo => (lane v lo).toNat
  | k + 1, lo => (f (block f v k lo) (block f v k (lo + 2 ^ k))).1

/-- R109: lane l of a scan after k steps: at step k with the lane 2^k below it, on its left. -/
def scanAt (f : Nat → Nat → Nat × FlagSet) (v : Lanes) : Nat → Nat → Nat
  | 0, l => (lane v l).toNat
  | k + 1, l => if l < 2 ^ k then scanAt f v k l else (f (scanAt f v k (l - 2 ^ k)) (scanAt f v k l)).1

end Sys2Proof.Machine
end

