-- ==== Sys2Proof/Certificates/Slice0/Obligations.lean ====
section
/-! DEFINITION. Certificates/Slice0/Obligations.lean: the statements for the provers. -/

open Sys2Proof Sys2Proof.Machine

/-! ## The machine -/

/-- R110, R115, R118, R126, R135, R139, R189, R203, R210-R218, R223, R321: the values the spec gives at package reset, in
every context j of every core n: S and V registers, full/empty states, predicates, branch registers, rings, codebook
registers, decoder tables, every control register and counter as crd reads it, the array state, the shuffle patterns and the
beat store. The virtual device field of CSTAT is 0 here because every cluster starts in virtual device 0 (log 3). -/
def Obligations.ResetState : Prop :=
  ∀ n j c k d : Nat, n < 512 → j < 4 →
    let s := State.reset
    let x := s.ctx n j
    let reg := fun (r : Nat) => s.ctlWord n (s.core n) j r
    x.regS c = 0 ∧ x.feS c = .full ∧ (∀ l, lane (x.regV k) l = 0) ∧ x.pred 0 = true ∧ (0 < k → x.pred k = false)
      ∧ x.b.get 0 k = 0 ∧ x.prep = [] ∧ x.tapS false d = 0 ∧ x.tapS true d = 0 ∧ (∀ l, lane (x.tapV k d) l = 0)
      ∧ x.flights = [] ∧ x.level = 0 ∧ x.uih = false ∧ (s.core n).owner = none
      ∧ reg 0x000 = BitVec.ofNat 64 ((4 * n + j) * 2 ^ 18)
      ∧ reg 0x001 = 0 ∧ reg 0x002 = 0 ∧ reg 0x003 = 0 ∧ reg 0x004 = 0x0000008800000000
      ∧ (∀ r, 0x008 ≤ r → r ≤ 0x00B → reg r = 0) ∧ reg 0x010 = 32 ∧ reg 0x011 = 128 ∧ reg 0x012 = 184 ∧ reg 0x014 = 0
      ∧ reg 0x015 = 786432 ∧ (∀ r, 0x018 ≤ r → r ≤ 0x01B → reg r = 0) ∧ reg 0x020 = 0 ∧ reg 0x024 = 0 ∧ reg 0x025 = 0
      ∧ reg 0x028 = 4096 ∧ reg 0x029 = 65536 ∧ reg 0x030 = 0x10 ∧ reg 0x031 = 0
      ∧ (∀ r, 0x040 ≤ r → r ≤ 0x044 → reg r = 0) ∧ (∀ r, 0x050 ≤ r → r ≤ 0x053 → reg r = 0)
      ∧ (∀ r, 0x100 ≤ r → r ≤ 0x13F → reg r = 0)
      ∧ (let q := x.cb.get Codebook.reset k; q.n = 1 ∧ q.tag = 0 ∧ ∀ i, nth 0 q.entry i = 0 ∧ nth 0 q.pop i = 0)
      ∧ (let t := x.dt.get DTable.reset k; t.b0.valid = false ∧ t.b1.valid = false ∧ t.g = 0)
      ∧ (let a := s.core n
         (∀ tile r l, nth 0 ((a.acc tile).get zeroRow r) l = 0) ∧ (∀ r l, nth 0 (a.active.get zeroXRow r) l = 0) ∧
         (∀ r l, nth 0 (a.shadow.get zeroXRow r) l = 0) ∧ a.arc = 0 ∧ a.brc = 0 ∧ a.play = none ∧ a.scales = [] ∧
         a.scalesIn = [] ∧ a.fifo = [] ∧ a.fifoSegs = 0 ∧ a.atiles = [] ∧ a.btiles = [] ∧
         (∀ l, l < 128 → nth 0 (a.pattern k) l = l) ∧ a.beats.get 0x20000000 k = 0x20000000)

/-- R4, R8, R38-R41, R53: a step at which the current context's next bundle is offered runs the decoded slots of that
bundle with exec, one after the other, and adds around them what a bundle has: the tick of its landings and the fixing
of its sources before (begin_), the boundary and the cycle after (issued), unless it ends its item while a producer will fail
or may (endVoid; R85, log 91). The slots are the words' own decoding. A move
of the agenda is exec of the event it names, after which the plwaits whose
conditions it met complete (R183) and writes of hardware whose page no longer migrates are made (R268). The order of moves
is the model's (log 12). -/
def Obligations.StepRunsTheBundle : Prop :=
  (∀ (s t : State) (i : Instr) (rest : List Move),
    s.agenda = .event i :: rest → exec i { s with agenda := rest } = .next t → step s = .next t.settleAll) ∧
  (∀ (i : Instr) (rest : List Instr) (s t : State),
    exec i { s with issue := { s.issue with slots := rest } } = .next t →
    State.runSlots (i :: rest) s =
      if t.issue.void.isSome then .next t else State.runSlots rest { t with issue := t.issue.after i }) ∧
  (∀ (ws : List Nat) (is_ : List Instr), checkBundle ws false = .ok is_ → ws.map decodeWord = is_.map Except.ok) ∧
  (∀ (s f t : State) (ws : List Nat) (is_ : List Instr),
    s.agenda = [] → s.stopped = false → s.burst < burstMax →
    let u := ({ s with issue := Issue.none }).refresh s.cur
    let pc := u.me.pc
    u.cur = s.cur → u.mayOffer = true → u.mycore.play.any (fun p => p.ctx == u.j) = false → pc % 4 = 0 →
    { u with issue := { Issue.none with addr := pc } }.fetchWords u.cur (u.me.level == 0) 8 pc = (f, .ok ws) →
    checkBundle ws false = .ok is_ → f.mycore.playing f.j = false →
    let g := { f with issue := { f.issue with next := pc + 4 * ws.length, slots := is_ } }
    g.begin_.precheck is_ = .ok () → State.runSlots is_ g.begin_ = .next t → t.issue.void = none → t.endVoid = none →
    step s = .next { t.issued s.cur with burst := (t.issued s.cur).burst + 1 })

/-- R36, R44-R66: words written out from the encoding tables decode to the instructions they stand for. -/
def Obligations.DecodeWords : Prop :=
  decodeWord 0x00428610 = .ok (.add 2 (.reg 3 true) (.reg 4 false)) ∧
  decodeWord 0x09DB0C1C = .ok (.cmp 3 .ltu (.reg 6 false) (.reg 7 false)) ∧
  decodeWord 0x1A8E0407 = .ok (.vcvt (.reg 7) (.reg 2 0 false) .fp32 .e4m3 true) ∧
  decodeWord 0x21012040 = .ok (.maccG false 9 (.reg 2 0 false)) ∧
  decodeWord 0x30C2060B = .ok (.sts (.reg 4 false) (.reg 6 false) 2 .double) ∧
  decodeWord 0x35584030 = .ok (.amoCas .package .none 8 (.reg 3 false) false) ∧
  decodeWord 0x40420524 = .ok (.cpost (.reg 4 false) (.reg 5 false) 9) ∧
  decodeWord 0xD0C90000 = .ok (.br 1 1 false) ∧
  decodeWord 0x611E0410 = .ok (.crd 30 0x041) ∧
  decodeWord 0x70000000 = .error .class7

/-- R36: every well-formed slot instruction has a word of 31 bits, and that word, with STOP clear or set, decodes to it
with every operand it had. -/
def Obligations.DecodeEncode : Prop :=
  ∀ i : Instr, i.wf = true → i.opcode.isSome →
    ∃ w, encode i = some w ∧ w < 2 ^ 31 ∧ decodeWord w = .ok i ∧ decodeWord (w + 2 ^ 31) = .ok i

/-- R36, R55: a word that decodes is the word of a well-formed instruction, so no two words of 31 bits mean the same
instruction, and no reserved field is dropped. -/
def Obligations.DecodedWordIsTheEncoding : Prop :=
  ∀ (w : Nat) (i : Instr), decodeWord w = .ok i → i.wf = true ∧ encode i = some (w % 2 ^ 31)

/-- Log 2: device memory keeps its one canonical form in every step: addresses strictly rising, no entry 0. -/
def Obligations.StepKeepsMemoryCanonical : Prop :=
  ∀ s t : State, s.mem.wf = true → step s = .next t → t.mem.wf = true

/-- Log 2: memory is in that form after reset, every byte reading 0 (the model's choice), with nothing listed; so are
every pool and every cluster's SRAM. -/
def Obligations.ResetMemory : Prop :=
  State.reset.memOk = true ∧ State.reset.mem.cells = [] ∧
  (∀ a, State.reset.mem.read a = 0) ∧ (∀ n a, (State.reset.core n).pool.read a = 0) ∧
  (∀ n a, (State.reset.cluster n).csram.read a = 0)

/-- R2: memory is byte-addressed and little-endian: n bytes written read back, byte k of a written number is its bits
8k+7:8k, and no other byte changes. -/
def Obligations.MemoryReadsBackWrites : Prop :=
  ∀ (m : Memory) (a b n v : Nat) (bs : List Byte),
    (m.writeN a bs).readN a bs.length = bs ∧
    ((b < a ∨ a + bs.length ≤ b) → (m.writeN a bs).read b = m.read b) ∧
    (m.writeN a (toBytes n v)).num a n = v % 2 ^ (8 * n) ∧
    (∀ k, k < n → ((m.writeN a (toBytes n v)).read (a + k)).toNat = v / 2 ^ (8 * k) % 256) ∧
    (m.wf = true → (m.writeN a bs).wf = true)

/-! ## Sources and landings -/

/-- R44, R203, R205, R35: an S source is the register's value when full; empty it stalls in mode 0 and raises the
empty-read fault 0x12 with the register in TINFO in mode 1; empty-faulted it raises the register's deferred fault in
either mode; s0 reads 0; a tap reads its ring entry. -/
def Obligations.SourceReads : Prop :=
  ∀ (s : State) (r : BitVec 6) (trap : Bool) (d : BitVec 2),
    (s.rd.feS r.toNat = .full → s.readS (.reg r trap) = .ok (s.rd.regS r.toNat)) ∧
    (s.rd.feS r.toNat = .empty → s.readS (.reg r false) = .error (.stall .fe)) ∧
    (s.rd.feS r.toNat = .empty → s.readS (.reg r true) = .error (.trap ⟨0x12, 0, r.toNat, none, none, false⟩)) ∧
    (s.rd.feS r.toNat = .faulted → ∃ v, s.readS (.reg r trap) = .error (.trap v) ∧
      v.cause = (s.rd.regS r.toNat).toNat / 2 ^ 56 ∧ v.mapOf = some r.toNat) ∧
    s.readS (.reg 0 trap) = .ok 0 ∧
    s.readS (.tap false d) = .ok (nth 0 s.rd.x0 d.toNat) ∧ s.readS (.tap true d) = .ok (nth 0 s.rd.x1 d.toNat)

/-- R53: a result that lands n ticks after its bundle reaches its register exactly at the n-th tick: before it, the
register and the ring read as they did; from it on, the register holds the value and is full, the value stands at depth
0 of the unit's ring, and its flags are set. Of two landings of one unit that reach one register at the same tick the
later-issued one is the value kept, at depth 0, the earlier one at depth 1. -/
def Obligations.LandsAtItsTick : Prop :=
  ∀ (c : Core) (j n r k m : Nat) (v : Word) (w : Lanes) (fl : FlagSet) (f g : Flight),
    let x := c.ctx j
    (1 ≤ r → x.flights = [f, g] →
      f.unit = .x0 → g.unit = .x0 → f.dest = .s r → g.dest = .s r → f.home = x.depth → g.home = x.depth →
      f.rem = 1 → g.rem = 1 → f.beat = .none → g.beat = .none → f.shadow = x.shadowed r → g.shadow = x.shadowed r →
      let y := (c.tick j).ctx j
      y.regS r = g.val ∧ y.feS r = .full ∧ y.tapS false 0 = g.val ∧ y.tapS false 1 = f.val ∧ y.flights = []) ∧
    (x.flights = [] → 1 ≤ n → 1 ≤ r → 1 ≤ k →
    let c1 := c.setCtx j (x.land .x0 (.s r) v [] n fl false 0 .none)
    let c2 := c.setCtx j (x.land .y0 (.v r) 0 w n fl false 0 .none)
    let c3 := c.setCtx j (x.land .x1 (.p k) v [] n fl false 0 .none)
    (m < n → ((c1.ticks j m).ctx j).regS r = x.regS r ∧ ((c1.ticks j m).ctx j).feS r = x.feS r ∧
      ((c1.ticks j m).ctx j).x0 = x.x0 ∧ ((c1.ticks j m).ctx j).vstat = x.vstat ∧
      ((c2.ticks j m).ctx j).regV r = x.regV r ∧ ((c3.ticks j m).ctx j).pred k = x.pred k) ∧
    ((c1.ticks j n).ctx j).regS r = v ∧ ((c1.ticks j n).ctx j).feS r = .full ∧
    ((c1.ticks j n).ctx j).tapS false 0 = v ∧ ((c1.ticks j n).ctx j).tapS false 1 = x.tapS false 0 ∧
    ((c1.ticks j n).ctx j).vstat = x.vstat ||| fl ∧ ((c1.ticks j n).ctx j).flights = [] ∧
    ((c2.ticks j n).ctx j).regV r = w ∧ ((c2.ticks j n).ctx j).tapV 0 0 = w ∧
    ((c3.ticks j n).ctx j).pred k = (v != 0) ∧ ((c3.ticks j n).ctx j).tapS true 0 = v)

/-- R8, R67, R98: a slot of the S or V class that has its sources changes nothing but what it puts in flight: no
register, no flag, no special register, no memory byte, nothing of another context, core or unit. -/
def Obligations.ScalarVectorFrame : Prop :=
  ∀ (i : Instr) (s t : State) (c o : Nat),
    i.opcode = some (c, o) → c < 2 → s.issue.void = none → exec i s = .next t → t.issue.void = none →
    OnlyLands s t

/-! ## The S class -/

/-- R43: the nop of every class changes nothing and lands nothing. -/
def Obligations.NopsChangeNothing : Prop :=
  ∀ s : State, exec .nopS s = .next s ∧ exec .nopV s = .next s ∧ exec .nopM s = .next s ∧ exec .nopL s = .next s ∧
    exec .nopC s = .next s ∧ exec .nopB s = .next s ∧ exec .nopX s = .next s

/-- R68: the two-source and immediate integer instructions: their value modulo 2^64 and their tick, with the sources
readable. The result lands in the register the destination code names (none for code 0), with no flag. -/
def Obligations.ScalarIntegerResults : Prop :=
  ∀ (s : State) (d : BitVec 6) (a b : SSrc) (i : BitVec 9) (x y : Word), s.readS a = .ok x → s.readS b = .ok y →
    let lands := fun (v : Word) (n : Nat) => Host.Outcome.next (φ := Fault) (ρ := Refusal) (s.landX (sdst d) v n 0)
    exec (.add d a b) s = lands (BitVec.ofNat 64 (x.toNat + y.toNat)) 1 ∧
    exec (.addi d a i) s = lands (BitVec.ofInt 64 (x.toInt + i.toInt)) 1 ∧
    exec (.sub d a b) s = lands (BitVec.ofInt 64 (x.toInt - y.toInt)) 1 ∧
    exec (.andS d a b) s = lands (x &&& y) 1 ∧ exec (.orS d a b) s = lands (x ||| y) 1 ∧
    exec (.xorS d a b) s = lands (x ^^^ y) 1 ∧ exec (.andn d a b) s = lands (x &&& ~~~y) 1 ∧
    exec (.andi d a i) s = lands (x &&& BitVec.ofInt 64 i.toInt) 1 ∧
    exec (.ori d a i) s = lands (x ||| BitVec.ofInt 64 i.toInt) 1 ∧
    exec (.xori d a i) s = lands (x ^^^ BitVec.ofInt 64 i.toInt) 1 ∧
    exec (.minS d a b) s = lands (BitVec.ofInt 64 (min x.toInt y.toInt)) 1 ∧
    exec (.maxS d a b) s = lands (BitVec.ofInt 64 (max x.toInt y.toInt)) 1 ∧
    exec (.minu d a b) s = lands (BitVec.ofNat 64 (min x.toNat y.toNat)) 1 ∧
    exec (.maxu d a b) s = lands (BitVec.ofNat 64 (max x.toNat y.toNat)) 1 ∧
    exec (.mul d a b) s = lands (BitVec.ofNat 64 (x.toNat * y.toNat)) 3 ∧
    exec (.mulh d a b) s = lands (BitVec.ofInt 64 (x.toInt * y.toInt / 2 ^ 64)) 3 ∧
    exec (.mulhu d a b) s = lands (BitVec.ofNat 64 (x.toNat * y.toNat / 2 ^ 64)) 3

/-- R69: a shift by register takes an unsigned 64-bit amount; at 64 or more it gives 0, or copies of the sign. R70:
division lands in 12 ticks and never faults; a zero divisor and the one signed overflow give fixed results. -/
def Obligations.ScalarShiftAndDivision : Prop :=
  ∀ (s : State) (d : BitVec 6) (a b : SSrc) (i : BitVec 6) (x y : Word), s.readS a = .ok x → s.readS b = .ok y →
    let lands := fun (v : Word) (n : Nat) => Host.Outcome.next (φ := Fault) (ρ := Refusal) (s.landX (sdst d) v n 0)
    let shl := fun (n : Nat) => BitVec.ofNat 64 (x.toNat * 2 ^ n)
    let shr := fun (n : Nat) => BitVec.ofNat 64 (x.toNat / 2 ^ n)
    let sar := fun (n : Nat) => BitVec.ofInt 64 (x.toInt / 2 ^ n)
    exec (.shl d a b) s = lands (if y.toNat < 64 then shl y.toNat else 0) 1 ∧
    exec (.shr d a b) s = lands (if y.toNat < 64 then shr y.toNat else 0) 1 ∧
    exec (.sar d a b) s = lands (if y.toNat < 64 then sar y.toNat
      else if 0 ≤ x.toInt then 0 else 0xFFFFFFFFFFFFFFFF) 1 ∧
    exec (.shli d a i) s = lands (shl i.toNat) 1 ∧ exec (.shri d a i) s = lands (shr i.toNat) 1 ∧
    exec (.sari d a i) s = lands (sar i.toNat) 1 ∧
    exec (.div d a b) s = lands (if y.toInt = 0 then 0xFFFFFFFFFFFFFFFF
      else if x.toInt = -2 ^ 63 ∧ y.toInt = -1 then 0x8000000000000000 else BitVec.ofInt 64 (x.toInt.tdiv y.toInt)) 12 ∧
    exec (.divu d a b) s = lands (if y.toNat = 0 then 0xFFFFFFFFFFFFFFFF else BitVec.ofNat 64 (x.toNat / y.toNat)) 12 ∧
    exec (.rem d a b) s = lands (if y.toInt = 0 then x
      else if x.toInt = -2 ^ 63 ∧ y.toInt = -1 then 0 else BitVec.ofInt 64 (x.toInt.tmod y.toInt)) 12 ∧
    exec (.remu d a b) s = lands (if y.toNat = 0 then x else BitVec.ofNat 64 (x.toNat % y.toNat)) 12

/-- R71: movi, movhi and the bit counts: clz and ctz are 64 for 0, otherwise the highest or lowest one bit stands
there; popc counts the one bits. movhi reads its destination. -/
def Obligations.ScalarMovesAndCounts : Prop :=
  ∀ (s : State) (d : BitVec 6) (a : SSrc) (i : BitVec 16) (x o : Word), s.readS a = .ok x → s.readD d = .ok o →
    let lands := fun (v : Nat) => Host.Outcome.next (φ := Fault) (ρ := Refusal) (s.landX (sdst d) (BitVec.ofNat 64 v) 1 0)
    exec (.movi d i) s = .next (s.landX (sdst d) (BitVec.ofInt 64 i.toInt) 1 0) ∧
    exec (.movhi d i) s = lands (o.toNat * 65536 + i.toNat) ∧
    (∃ k, exec (.clz d a) s = lands k ∧ (x.toNat = 0 → k = 64) ∧
      (x.toNat ≠ 0 → k < 64 ∧ 2 ^ (63 - k) ≤ x.toNat ∧ x.toNat < 2 ^ (64 - k))) ∧
    (∃ k, exec (.ctz d a) s = lands k ∧ (x.toNat = 0 → k = 64) ∧
      (x.toNat ≠ 0 → k < 64 ∧ x.toNat % 2 ^ k = 0 ∧ x.toNat / 2 ^ k % 2 = 1)) ∧
    exec (.popc d a) s = lands ((List.range 64).countP fun k => x.toNat / 2 ^ k % 2 == 1)

/-- R72: sel takes a where the predicate landed before the bundle is true, b where it is false, p0 reading true; lea
adds b shifted left by 0 to 3. -/
def Obligations.SelectAndLea : Prop :=
  ∀ (s : State) (d : BitVec 6) (a b : SSrc) (p h : BitVec 2) (x y : Word), s.readS a = .ok x → s.readS b = .ok y →
    let lands := fun (v : Word) => Host.Outcome.next (φ := Fault) (ρ := Refusal) (s.landX (sdst d) v 1 0)
    exec (.selP0P3 d a b 0) s = lands x ∧
    (p ≠ 0 → exec (.selP0P3 d a b p) s = lands (if s.rd.p / 2 ^ p.toNat % 2 = 1 then x else y)) ∧
    exec (.selP4P7 d a b p) s = lands (if s.rd.p / 2 ^ (p.toNat + 4) % 2 = 1 then x else y) ∧
    exec (.lea d a b h) s = lands (BitVec.ofNat 64 (x.toNat + y.toNat * 2 ^ h.toNat))

/-- R73: extr, extru and ins with offset b[6:0] and width b[14:8], clipped at bit 63. -/
def Obligations.BitFieldResults : Prop :=
  ∀ (s : State) (d : BitVec 6) (a b : SSrc) (x y o : Word), s.readS a = .ok x → s.readS b = .ok y → s.readD d = .ok o →
    let lands := fun (v : Word) => Host.Outcome.next (φ := Fault) (ρ := Refusal) (s.landX (sdst d) v 1 0)
    let off := y.toNat % 128
    let n := if 64 ≤ off then 0 else min (y.toNat / 256 % 128) (64 - off)
    let f := x.toNat / 2 ^ off % 2 ^ n
    exec (.extru d a b) s = lands (BitVec.ofNat 64 f) ∧
    exec (.extr d a b) s = lands (if n = 0 then 0 else if f < 2 ^ (n - 1) then BitVec.ofNat 64 f
      else BitVec.ofInt 64 ((f : Int) - 2 ^ n)) ∧
    exec (.ins d a b) s = lands (if n = 0 then o
      else BitVec.ofNat 64 (o.toNat - o.toNat / 2 ^ off % 2 ^ n * 2 ^ off + x.toNat % 2 ^ n * 2 ^ off))

/-- R74, R75, R51: the six conditions of cmp and cmpi, the imm9 of cmpi sign-extended and compared as the condition says;
the predicate instructions, p0 reading true. The truth value lands in 1 tick in pd; a landing in p0 changes
no predicate. -/
def Obligations.CompareResults : Prop :=
  ∀ (s : State) (p q r : BitVec 3) (a b : SSrc) (i : BitVec 9) (x y : Word), s.readS a = .ok x → s.readS b = .ok y →
    let lands := fun (v : Bool) => Host.Outcome.next (φ := Fault) (ρ := Refusal)
      (s.landX (.p p.toNat) (if v then 1 else 0) 1 0)
    let z := BitVec.ofInt 64 i.toInt
    exec (.cmp p .eq a b) s = lands (x == y) ∧ exec (.cmp p .ne a b) s = lands (!(x == y)) ∧
    exec (.cmp p .lt a b) s = lands (decide (x.toInt < y.toInt)) ∧
    exec (.cmp p .ltu a b) s = lands (decide (x.toNat < y.toNat)) ∧
    exec (.cmp p .le a b) s = lands (decide (x.toInt ≤ y.toInt)) ∧
    exec (.cmp p .leu a b) s = lands (decide (x.toNat ≤ y.toNat)) ∧
    exec (.cmpi p .eq a i) s = lands (decide (x.toInt = i.toInt)) ∧
    exec (.cmpi p .ne a i) s = lands (decide (x.toInt ≠ i.toInt)) ∧
    exec (.cmpi p .lt a i) s = lands (decide (x.toInt < i.toInt)) ∧
    exec (.cmpi p .ltu a i) s = lands (decide (x.toNat < z.toNat)) ∧
    exec (.cmpi p .le a i) s = lands (decide (x.toInt ≤ i.toInt)) ∧
    exec (.cmpi p .leu a i) s = lands (decide (x.toNat ≤ z.toNat)) ∧
    let val := fun (n : BitVec 3) => decide (n = 0 ∨ s.rd.p / 2 ^ n.toNat % 2 = 1)
    exec (.pand p q r) s = lands (val q && val r) ∧ exec (.por p q r) s = lands (val q || val r) ∧
    exec (.pxor p q r) s = lands (val q != val r) ∧ exec (.pnot p q) s = lands (!val q) ∧
    ∀ t : Bool, s.me.setPred 0 t = s.me

/-- R77, R78: sfadd, sfmul and sfma round A + B, A × B and A × B + D of bits 31:0 once, in the mode VCTL.RM holds, land in
4 ticks with their flags and leave bits 63:32 zero; sfcvt lands Convert in 2 ticks, an I32 result sign-extended, and
returns equal formats unchanged with no flag. The arithmetic of the formats is the model's Num. -/
def Obligations.ScalarFloatResults : Prop :=
  ∀ (s : State) (d : BitVec 6) (a b : SSrc) (f g : CvtFmt) (u : Bool) (x y o : Word),
    s.readS a = .ok x → s.readS b = .ok y → s.readD d = .ok o →
    let m := RMode.ofCode s.rd.rm
    let num := fun (w : Word) => value .fp32 (w.toNat % 2 ^ 32)
    let lands := fun (r : Nat × FlagSet) => Host.Outcome.next (φ := Fault) (ρ := Refusal)
      (s.landX (sdst d) (BitVec.ofNat 64 r.1) 4 r.2)
    exec (.sfadd d a b) s = lands (fadd .fp32 m (num x) (num y)) ∧
    exec (.sfmul d a b) s = lands (fmul .fp32 m (num x) (num y)) ∧
    exec (.sfma d a b) s = lands (ffma .fp32 m (num x) (num y) (num o)) ∧
    (let r := convert m f g u (x.toNat % 2 ^ widthOf f)
     exec (.sfcvt d a f g u) s = .next (s.landX (sdst d)
      (if g = .i32 then (BitVec.ofNat 32 r.1).signExtend 64 else BitVec.ofNat 64 r.1) 2 r.2))

/-! ## The V class -/

/-- R102, R103: the I32 instructions, lane by lane: modulo 2^32, no flag, 2 ticks, each lane its own shift count. -/
def Obligations.VectorIntegerResults : Prop :=
  ∀ (s : State) (d : VDst) (a b : VSrc),
    let x := fun i => lane (s.readV a) i
    let y := fun i => lane (s.readV b) i
    let lands := fun (i : Instr) (f : Nat → W32) => ∃ w : Lanes,
      exec i s = .next (s.landY (vdst d) w 2 0) ∧ w.length = 128 ∧ ∀ l, l < 128 → lane w l = f l
    lands (.vaddI32 d a b) (fun l => BitVec.ofNat 32 ((x l).toNat + (y l).toNat)) ∧
    lands (.vsubI32 d a b) (fun l => BitVec.ofInt 32 ((x l).toInt - (y l).toInt)) ∧
    lands (.vmulI32 d a b) (fun l => BitVec.ofNat 32 ((x l).toNat * (y l).toNat)) ∧
    lands (.vmaxI32 d a b) (fun l => BitVec.ofInt 32 (max (x l).toInt (y l).toInt)) ∧
    lands (.vminI32 d a b) (fun l => BitVec.ofInt 32 (min (x l).toInt (y l).toInt)) ∧
    lands (.vandI32 d a b) (fun l => x l &&& y l) ∧ lands (.vorI32 d a b) (fun l => x l ||| y l) ∧
    lands (.vxorI32 d a b) (fun l => x l ^^^ y l) ∧ lands (.vandnI32 d a b) (fun l => x l &&& ~~~y l) ∧
    lands (.vshlI32 d a b) (fun l => if (y l).toNat < 32 then BitVec.ofNat 32 ((x l).toNat * 2 ^ (y l).toNat) else 0) ∧
    lands (.vshrI32 d a b) (fun l => if (y l).toNat < 32 then BitVec.ofNat 32 ((x l).toNat / 2 ^ (y l).toNat) else 0) ∧
    lands (.vsarI32 d a b) (fun l => if (y l).toNat < 32 then BitVec.ofInt 32 ((x l).toInt / 2 ^ (y l).toNat)
      else if 0 ≤ (x l).toInt then 0 else 0xFFFFFFFF) ∧
    lands (.vcmpEqI32 d a b) (fun l => if x l = y l then 0xFFFFFFFF else 0) ∧
    lands (.vcmpLtI32 d a b) (fun l => if (x l).toInt < (y l).toInt then 0xFFFFFFFF else 0) ∧
    lands (.vcmpLeI32 d a b) (fun l => if (x l).toInt ≤ (y l).toInt then 0xFFFFFFFF else 0)

/-- R99, R100, R103, R107: the FP32 instructions: every lane rounded once in the mode VCTL.RM holds, the flags the OR over
the 128 lanes; vabs and vneg act on bit 31 alone and set no flag. The arithmetic of a lane is the model's Num and Trans. -/
def Obligations.VectorFloatResults : Prop :=
  ∀ (s : State) (d : VDst) (e : BitVec 4) (a b : VSrc),
    let m := RMode.ofCode s.rd.rm
    let x := fun i => (lane (s.readV a) i).toNat
    let y := fun i => (lane (s.readV b) i).toNat
    let o := fun i => (lane (s.rd.regV e.toNat) i).toNat
    let v := value .fp32
    let lands := fun (i : Instr) (to_ : Dest) (n : Nat) (f : Nat → Nat × FlagSet) => ∃ (w : Lanes) (fl : FlagSet),
      exec i s = .next (s.landY to_ w n fl) ∧ w.length = 128 ∧ (∀ l, l < 128 → lane w l = BitVec.ofNat 32 (f l).1) ∧
      ∀ k, k < 5 → (fl.getLsbD k = true ↔ ∃ l, l < 128 ∧ (f l).2.getLsbD k = true)
    lands (.vaddF32 d a b) (vdst d) 4 (fun l => fadd .fp32 m (v (x l)) (v (y l))) ∧
    lands (.vsubF32 d a b) (vdst d) 4 (fun l => fadd .fp32 m (v (x l)) (v (y l)).negate) ∧
    lands (.vmulF32 d a b) (vdst d) 4 (fun l => fmul .fp32 m (v (x l)) (v (y l))) ∧
    lands (.vfmaF32 e a b) (.v e.toNat) 4 (fun l => ffma .fp32 m (v (x l)) (v (y l)) (v (o l))) ∧
    lands (.vfmsF32 e a b) (.v e.toNat) 4 (fun l => ffma .fp32 m (v (x l)).negate (v (y l)) (v (o l))) ∧
    lands (.vmaxF32 d a b) (vdst d) 2 (fun l => fmaxmin .fp32 true (x l) (y l)) ∧
    lands (.vminF32 d a b) (vdst d) 2 (fun l => fmaxmin .fp32 false (x l) (y l)) ∧
    lands (.vabsF32 d a) (vdst d) 2 (fun l => (x l % 2 ^ 31, 0)) ∧
    lands (.vnegF32 d a) (vdst d) 2 (fun l => ((x l + 2 ^ 31) % 2 ^ 32, 0)) ∧
    lands (.vcmpEqF32 d a b) (vdst d) 2 (fun l => fcmp true eqFV (x l) (y l)) ∧
    lands (.vcmpLtF32 d a b) (vdst d) 2 (fun l => fcmp false ltFV (x l) (y l)) ∧
    lands (.vcmpLeF32 d a b) (vdst d) 2 (fun l => fcmp false (fun p q => ltFV p q || eqFV p q) (x l) (y l)) ∧
    lands (.vrcpF32 d a) (vdst d) 8 (fun l => trans .rcp m (x l)) ∧
    lands (.vrsqF32 d a) (vdst d) 8 (fun l => trans .rsq m (x l)) ∧
    lands (.vexp2F32 d a) (vdst d) 8 (fun l => trans .exp2 m (x l)) ∧
    lands (.vlog2F32 d a) (vdst d) 8 (fun l => trans .log2 m (x l)) ∧
    lands (.vtanhF32 d a) (vdst d) 8 (fun l => trans .tanh m (x l)) ∧
    lands (.vsigF32 d a) (vdst d) 8 (fun l => trans .sig m (x l))

/-- R101: the 16-bit instructions: element e of 256 from element e of each source, rounded once into the format; the
flags the OR over all elements. -/
def Obligations.VectorHalfResults : Prop :=
  ∀ (s : State) (d : VDst) (e : BitVec 4) (a b : VSrc),
    let m := RMode.ofCode s.rd.rm
    let x := fun i => element 16 (s.readV a) i
    let y := fun i => element 16 (s.readV b) i
    let o := fun i => element 16 (s.rd.regV e.toNat) i
    let lands := fun (i : Instr) (to_ : Dest) (n : Nat) (f : Nat → Nat × FlagSet) => ∃ (w : Lanes) (fl : FlagSet),
      exec i s = .next (s.landY to_ w n fl) ∧ w.length = 128 ∧ (∀ k, k < 256 → element 16 w k = (f k).1 % 2 ^ 16) ∧
      ∀ k, k < 5 → (fl.getLsbD k = true ↔ ∃ l, l < 256 ∧ (f l).2.getLsbD k = true)
    let add := fun (g : CvtFmt) k => fadd g m (value g (x k)) (value g (y k))
    let mul := fun (g : CvtFmt) k => fmul g m (value g (x k)) (value g (y k))
    let fma := fun (g : CvtFmt) k => ffma g m (value g (x k)) (value g (y k)) (value g (o k))
    lands (.vaddBf16 d a b) (vdst d) 4 (add .bf16) ∧ lands (.vaddF16 d a b) (vdst d) 4 (add .fp16) ∧
    lands (.vmulBf16 d a b) (vdst d) 4 (mul .bf16) ∧ lands (.vmulF16 d a b) (vdst d) 4 (mul .fp16) ∧
    lands (.vfmaBf16 e a b) (.v e.toNat) 4 (fma .bf16) ∧ lands (.vfmaF16 e a b) (.v e.toNat) 4 (fma .fp16) ∧
    lands (.vmaxBf16 d a b) (vdst d) 2 (fun k => fmaxmin .bf16 true (x k) (y k)) ∧
    lands (.vmaxF16 d a b) (vdst d) 2 (fun k => fmaxmin .fp16 true (x k) (y k)) ∧
    lands (.vminBf16 d a b) (vdst d) 2 (fun k => fmaxmin .bf16 false (x k) (y k)) ∧
    lands (.vminF16 d a b) (vdst d) 2 (fun k => fmaxmin .fp16 false (x k) (y k))

/-- R104, R105: vsel is a bitwise select with the old destination as mask; vbcast, vmovs and vidx put bits 31:0 of a
scalar into lanes; all in 2 ticks and with no flag. -/
def Obligations.LaneSelection : Prop :=
  ∀ (s : State) (d : VDst) (e : BitVec 4) (v w : VSrc) (a : SSrc) (k : BitVec 7) (x : Word),
    let old := s.rd.regV e.toNat
    let lands := fun (i : Instr) (to_ : Dest) (f : Nat → W32) => ∃ w : Lanes,
      exec i s = .next (s.landY to_ w 2 0) ∧ w.length = 128 ∧ ∀ l, l < 128 → lane w l = f l
    lands (.vsel e v w) (.v e.toNat)
      (fun l => (lane (s.readV v) l &&& lane old l) ||| (lane (s.readV w) l &&& ~~~(lane old l))) ∧
    (s.readS a = .ok x →
      lands (.vbcast d a) (vdst d) (fun _ => BitVec.ofNat 32 x.toNat) ∧
      lands (.vmovs e a k) (.v e.toNat) (fun l => if l = k.toNat then BitVec.ofNat 32 x.toNat else lane old l) ∧
      lands (.vidx d a) (vdst d) (fun l => BitVec.ofNat 32 (x.toNat + l)))

/-- R106: vcvt converts elements 0 to 127, lands in 4 ticks with the OR of their flags, and returns the source bit for
bit with no flag where the formats are equal. -/
def Obligations.VectorConvert : Prop :=
  ∀ (s : State) (d : VDst) (a : VSrc) (f g : CvtFmt) (u : Bool),
    let m := RMode.ofCode s.rd.rm
    let r := fun k => convert m f g u (element (widthOf f) (s.readV a) k)
    exec (.vcvt d a f f u) s = .next (s.landY (vdst d) (s.readV a) 4 0) ∧
    (f ≠ g → ∃ (w : Lanes) (fl : FlagSet), exec (.vcvt d a f g u) s = .next (s.landY (vdst d) w 4 fl) ∧ w.length = 128 ∧
      (∀ k, k < 128 → element (widthOf g) w k = (r k).1 % 2 ^ widthOf g) ∧
      (∀ l, 128 * widthOf g ≤ 32 * l → l < 128 → lane w l = 0) ∧
      ∀ k, k < 5 → (fl.getLsbD k = true ↔ ∃ l, l < 128 ∧ (r l).2.getLsbD k = true))

/-- R108: a reduction puts in every lane the value of the tree that combines adjacent aligned blocks, the lower on the
left, with the OR of all its flags, in 6 ticks; the I32 sum is the sum of the lanes modulo 2^32, the I32 maximum and
minimum the largest and smallest lane as signed integers. R109: vscan.add lands in 6 ticks; in I32 every lane is the
prefix sum modulo 2^32, and in FP32 every lane is the sum of its steps, with the OR of the flags of every combination, and
lane 127, bit for bit, the vred.add of the same source. -/
def Obligations.ReductionsAndScan : Prop :=
  ∀ (s : State) (d : VDst) (a : VSrc),
    let m := RMode.ofCode s.rd.rm
    let v := s.readV a
    let lands := fun (i : Instr) (r : Nat × FlagSet) =>
      exec i s = .next (s.landY (vdst d) (List.replicate 128 (BitVec.ofNat 32 r.1)) 6 r.2)
    let add := fun (p q : Nat) => fadd .fp32 m (value .fp32 p) (value .fp32 q)
    let reduces := fun (i : Instr) (f : Nat → Nat → Nat × FlagSet) => ∃ fl : FlagSet, lands i (block f v 7 0, fl) ∧
      ∀ b, b < 5 → (fl.getLsbD b = true ↔ ∃ k q, k < 7 ∧ q < 2 ^ (6 - k) ∧
        (f (block f v k (q * 2 ^ (k + 1))) (block f v k (q * 2 ^ (k + 1) + 2 ^ k))).2.getLsbD b = true)
    reduces (.vredAdd d a false) add ∧
    reduces (.vredMax d a false) (fmaxmin .fp32 true) ∧
    reduces (.vredMin d a false) (fmaxmin .fp32 false) ∧
    lands (.vredAdd d a true) (((List.range 128).map fun l => (lane v l).toNat).sum, 0) ∧
    (∃ z : W32, lands (.vredMax d a true) (z.toNat, 0) ∧ (∃ l, l < 128 ∧ lane v l = z) ∧
      ∀ l, l < 128 → (lane v l).toInt ≤ z.toInt) ∧
    (∃ z : W32, lands (.vredMin d a true) (z.toNat, 0) ∧ (∃ l, l < 128 ∧ lane v l = z) ∧
      ∀ l, l < 128 → z.toInt ≤ (lane v l).toInt) ∧
    (∃ w : Lanes, exec (.vscanAdd d a true) s = .next (s.landY (vdst d) w 6 0) ∧ w.length = 128 ∧
      ∀ l, l < 128 → lane w l = BitVec.ofNat 32 (((List.range (l + 1)).map fun k => (lane v k).toNat).sum)) ∧
    ∃ (w : Lanes) (fl : FlagSet), exec (.vscanAdd d a false) s = .next (s.landY (vdst d) w 6 fl) ∧ w.length = 128 ∧
      (∀ l, l < 128 → lane w l = BitVec.ofNat 32 (scanAt add v 7 l)) ∧ lane w 127 = BitVec.ofNat 32 (block add v 7 0) ∧
      ∀ b, b < 5 → (fl.getLsbD b = true ↔ ∃ k l, k < 7 ∧ 2 ^ k ≤ l ∧ l < 128 ∧
        (add (scanAt add v k (l - 2 ^ k)) (scanAt add v k l)).2.getLsbD b = true)

/-- R110-R113: vpld writes the inactive bank of its entry from the scratchpad as it was before the bundle and makes it
active, leaving the bank that was active and every other entry; vshuf moves whole lanes by the selectors of the active bank, in 2 ticks. -/
def Obligations.ShufflePatterns : Prop :=
  ∀ (s : State) (d : VDst) (n : BitVec 5) (a b : VShort) (e : BitVec 6) (c : SSrc) (x : Word),
    let moved := fun (i : Instr) (k : Nat) => ∃ w : Lanes,
      exec i s = .next (s.landY (vdst d) w 2 0) ∧ w.length = 128 ∧ ∀ l, l < 128 →
        let sel := nth 0 (s.mycore.pattern k) l
        lane w l = if sel / 256 % 2 = 1 then 0
          else if sel % 256 < 128 then lane (s.readVS a) (sel % 256) else lane (s.readVS b) (sel % 256 - 128)
    moved (.vshufLo d n a b) n.toNat ∧ moved (.vshufHi d n a b) (n.toNat + 32) ∧
    (s.readS c = .ok x → s.scratchOk x.toNat 256 256 = true →
      ∃ t, exec (.vpld e c) s = .next t ∧ t = s.updMyCore (fun k => { k with shuffle := t.mycore.shuffle }) ∧
        (let old := s.mycore.shuffle.get ⟨none, none, false⟩ e.toNat
         let new := t.mycore.shuffle.get ⟨none, none, false⟩ e.toNat
         new.active1 = !old.active1 ∧
         (old.active1 = true → new.bank1 = old.bank1 ∧ new.bank0 = some (t.mycore.pattern e.toNat)) ∧
         (old.active1 = false → new.bank0 = old.bank0 ∧ new.bank1 = some (t.mycore.pattern e.toNat))) ∧
        (∀ l, l < 128 → nth 0 (t.mycore.pattern e.toNat) l = numAt (s.scrOld x.toNat 256) (2 * l) 2 % 512) ∧
        ∀ k, k ≠ e.toNat → t.mycore.pattern k = s.mycore.pattern k)

/-! ## The M class -/

/-- R116: a beat of a user-level context while nothing owns the array takes it, and does what the beat of its owner does;
while another context owns it, the beat has no effect but the array-busy trap 0x06 with the owner in TINFO. -/
def Obligations.ArrayOwnership : Prop :=
  ∀ (s : State) (p n : Bool) (q f c : BitVec 7) (v : VSrc) (h : Shape) (d : VDst) (g : CvtFmt) (u : Bool) (a : SSrc)
    (b : BitVec 8) (x : Word) (o : Nat),
    s.me.level = 0 → s.readS a = .ok x →
    let me := 4 * s.cur + s.j
    let beats := [Instr.mpush p, .mswap, .macc p n q, .maccG n q v, .mdrain h n q d g u, .mzero n f c, .mcfg a, .mrun b a q]
    let takes := fun (i : Instr) =>
      ∃ t, exec i s = .next t ∧ t.mycore.owner = some me ∧ t.issue.void = s.issue.void
    (s.mycore.owner = none →
      (∀ i ∈ beats, ∀ t, exec i s = .next t → t.issue.void = none → t.mycore.owner = some me) ∧
      (s.mycore.clearFifo = s.mycore → ∀ i ∈ beats, ∀ t,
        exec i (s.updMyCore fun k => { k with owner := some me }) = .next t → t.issue.void = none → exec i s = .next t) ∧
      (∀ i ∈ [Instr.mswap, .mdrain h n q d g u, .mzero n f c], takes i) ∧
      (mcfgCheck x = none → takes (.mcfg a)) ∧ (x.toNat % 2 ^ 32 = 0 → takes (.mrun b a q))) ∧
    (s.mycore.owner = some o → o ≠ me →
      ∀ i ∈ beats, exec i s = .next (s.void (.trap ⟨0x06, 0, o, none, none, false⟩)))

/-- R120-R122, R129-R134: the beats of a context that owns the array, for a floating element format and no scales: the
rows mpush decodes land in the shadow buffer in 1 tick, mswap lands in 1, the column sums of macc and macc.g land in
6, the packed elements of mdrain land in md and in its register in 4, mzero lands in 1. -/
def Obligations.MatrixBeats : Prop :=
  ∀ (s : State) (pop n u : Bool) (q f c : BitVec 7) (d : VDst) (h : Shape) (g : CvtFmt) (va : VSrc) (t : Tile)
    (ts : List Tile),
    s.ownsArray = true →
    let k := s.mycore
    let x := s.me
    let out := fun (i : Instr) (r : State) => exec i s = .next r.beatCounted
    let elem := fun (b : Bool) (bs : List Byte) (j : Nat) =>
      (x.operand b (numAt bs (fmtBytes (x.fmt b) * j) (fmtBytes (x.fmt b))) none).1
    let col := fun (a : Nat → XF19) (j : Nat) =>
      (columnSum ((List.range 128).map a) ((List.range 128).map fun r => nth 0 (k.active.get zeroXRow r) j)).1
    let row := 128 * fmtBytes (x.fmt false)
    out .mswap (s.landB .swap 1 0) ∧
    out (.mzero n f c) (s.landB (.zero n f.toNat (c.toNat + 1)) 1 0) ∧
    (∃ (w : Lanes) (fl : FlagSet), out (.mdrain h n q d g u) (s.landW .md (vdst d) w 4 fl true) ∧
      ∀ l, l < 128 → element (widthOf g) w l = (convert .rne .fp32 g u (match h with
        | .row => nth 0 ((k.acc n).get zeroRow q.toNat) l
        | .col => nth 0 ((k.acc n).get zeroRow l) q.toNat
        | .diag => nth 0 ((k.acc n).get zeroRow l) ((l + q.toNat) % 128)).toNat).1 % 2 ^ widthOf g) ∧
    (k.atiles = t :: ts → t.valid = true → x.fmt false < 5 → bit x.mctl 29 = false →
      ∃ (sums : List W32) (fl : FlagSet),
        out (.macc pop n q) ((s.landB (.acc n q.toNat sums) 6 fl).updMyCore fun c =>
          if pop then c.retireA else { c with arc := (c.arc + 1) % 128 }) ∧
        ∀ j, j < 128 → nth 0 sums j = col (elem false (k.ring false (t.offset + row * k.arc) row)) j) ∧
    (let addr := (lane (s.readV va) q.toNat).toNat
     x.fmt false < 5 → bit x.mctl 29 = false → s.scratchOk addr row row = true →
      ∃ (sums : List W32) (fl : FlagSet), out (.maccG n q va) (s.landB (.acc n q.toNat sums) 6 fl) ∧
        ∀ j, j < 128 → nth 0 sums j = col (elem false (k.scr addr row)) j) ∧
    (let wide := 128 * fmtBytes (x.fmt true)
     k.btiles = t :: ts → t.valid = true → t.counted = false → x.fmt true < 5 → bit x.mctl 30 = false →
      ∃ (r0 r1 : List XF19) (fl : FlagSet) (z : State), exec (.mpush pop) s = .next z ∧
        z.me.flights = s.me.flights ++
          [⟨.beat, .none, 0, [], 1, fl, true, s.issue.pos, x.depth, false, .push (2 * k.brc) r0 r1⟩] ∧
        z.mycore.brc = (if pop then 0 else (k.brc + 1) % 64) ∧ (pop = false → z.mycore.btiles = k.btiles) ∧
        ∀ j, j < 128 → nth 0 r0 j = elem true (k.ring true (t.offset + wide * (2 * k.brc)) wide) j ∧
          nth 0 r1 j = elem true (k.ring true (t.offset + wide * (2 * k.brc + 1)) wide) j)

/-- R117, R129-R131, R134: what a beat writes at its landing: two shadow rows, the buffers exchanged, one rounded addition
a column, or rows of +0 from the first, mod 128; every other row and buffer stays. -/
def Obligations.BeatLandings : Prop :=
  ∀ (c : Core) (r q first n : Nat) (a b : List XF19) (tile : Bool) (sums : List W32),
    let push := (c.beatWrite (.push r a b)).1
    let acc := (c.beatWrite (.acc tile q sums)).1
    let zero := (c.beatWrite (.zero tile first n)).1
    push.shadow.get zeroXRow r = a ∧ push.shadow.get zeroXRow (r + 1) = b ∧
    (∀ k, k ≠ r → k ≠ r + 1 → push.shadow.get zeroXRow k = c.shadow.get zeroXRow k) ∧ push.active = c.active ∧
    (c.beatWrite .swap).1.active = c.shadow ∧ (c.beatWrite .swap).1.shadow = c.active ∧
    (∀ j, j < sums.length → j < ((c.acc tile).get zeroRow q).length →
      nth 0 ((acc.acc tile).get zeroRow q) j =
        BitVec.ofNat 32 (fadd .fp32 .rne (value .fp32 (nth 0 ((c.acc tile).get zeroRow q) j).toNat)
          (value .fp32 (nth 0 sums j).toNat)).1) ∧
    (∀ k, k ≠ q → (acc.acc tile).get zeroRow k = (c.acc tile).get zeroRow k) ∧ acc.acc (!tile) = c.acc (!tile) ∧
    (∀ k, k < n → (zero.acc tile).get zeroRow ((first + k) % 128) = zeroRow) ∧
    (∀ k, (∀ m, m < n → k ≠ (first + m) % 128) → (zero.acc tile).get zeroRow k = (c.acc tile).get zeroRow k) ∧
    zero.acc (!tile) = c.acc (!tile)

/-- R119: mcfg makes a value that passes its four checks MCTL, and otherwise faults with the first check that fails and
the value; BENT and BDT unchanged here. -/
def Obligations.MatrixConfiguration : Prop :=
  ∀ (s : State) (a : SSrc) (v : Word), s.ownsArray = true → s.readS a = .ok v →
    let f := fun h l => bits v h l
    let c1 := f 63 43 = 0 ∧ f 28 28 = 0 ∧ f 15 8 = 0
    let c2 := f 3 0 < 7 ∧ f 7 4 < 7
    let c3 := 2 ≤ f 35 32 ∧ f 35 32 ≤ 8 ∧ 2 ≤ f 39 36 ∧ f 39 36 ≤ 8
    let c4 := f 31 31 = 1 → f 7 4 = 6
    let fails := fun (k : Nat) => exec (.mcfg a) s =
      .next (s.void (.trap ⟨0x07, 0, k, some ⟨3, 0, 0, v.toNat, 0, 0⟩, none, false⟩))
    (¬ c1 → fails 1) ∧ (c1 → ¬ c2 → fails 2) ∧ (c1 → c2 → ¬ c3 → fails 3) ∧ (c1 → c2 → c3 → ¬ c4 → fails 4) ∧
    (c1 → c2 → c3 → c4 → f 31 31 = bits s.me.mctl 31 31 → f 42 40 = bits s.me.mctl 42 40 →
      exec (.mcfg a) s = .next (s.updMe fun x => { x with mctl := v }).beatCounted)

/-- R137: mrun with count 0 plays nothing; otherwise it latches its entries and issues the first as a beat, here one that
holds mswap; a played beat acts as its word in the M slot, with STEP its row moved on by the iteration, and the play
closes after its last beat. -/
def Obligations.BeatPlays : Prop :=
  ∀ (s : State) (b : BitVec 8) (a : SSrc) (l : BitVec 7) (v : Word) (p : Play),
    s.ownsArray = true → s.readS a = .ok v →
    let count := v.toNat % 2 ^ 32
    let word := fun (i : Nat) => s.mycore.beats.get 0x20000000 (b.toNat + i)
    let play : Play := ⟨s.j, s.me.depth, (List.range (l.toNat + 1)).map word, b.toNat, l.toNat + 1, 0, 0, count⟩
    (count = 0 → exec (.mrun b a l) s = .next s.beatCounted) ∧
    (count ≠ 0 → decodeWord ((word 0).toNat % 2 ^ 31) = .ok .mswap →
      exec (.mrun b a l) s =
        .next ((s.landB .swap 1 0).beatCounted.updMyCore fun c => { c with play := play.next }).beatCounted) ∧
    (s.mycore.play = some p → p.ctx = s.j → p.home = s.me.depth → ∀ n f c,
      let w := (nth 0 p.entries p.pos).toNat
      decodeWord (w % 2 ^ 31) = .ok (.mzero n f c) →
      let row := if w / 2 ^ 31 = 1 then (f.toNat + p.iter) % 128 else f.toNat
      exec (.playedBeat s.cur) s =
        .next ((s.landB (.zero n row (c.toNat + 1)) 1 0).beatCounted.updMyCore fun c => { c with play := p.next })) ∧
    p.next = (if p.pos + 1 < p.length then some { p with pos := p.pos + 1 }
      else if p.left ≤ 1 then none else some { p with pos := 0, iter := p.iter + 1, left := p.left - 1 })

/-! ## The scratchpad -/

/-- R150, R153, R154: lds, lds.s and ldv read the scratchpad little-endian and land in 5 ticks, ldv in the ld ring too; all
while no phase.acq of the context is outstanding (R160). -/
def Obligations.ScratchpadLoads : Prop :=
  ∀ (s : State) (d : BitVec 6) (e : VDst) (a : SSrc) (i : BitVec 7) (j : BitVec 10) (z : Size) (x : Word),
    s.readS a = .ok x → s.me.phaseAcq = [] →
    let at_ := (BitVec.ofInt 64 (x.toInt + i.toInt * z.bytes)).toNat
    let av := (BitVec.ofInt 64 (x.toInt + j.toInt * 512)).toNat
    let num := fun (o n : Nat) => ofBytes (s.mycore.scr o n)
    (s.scratchOk at_ z.bytes z.bytes = true →
      exec (.lds d a i z) s = .next (s.landS .lds (sdst d) (BitVec.ofNat 64 (num at_ z.bytes)) 5) ∧
      exec (.ldsS d a i z) s =
        .next (s.landS .lds (sdst d) ((BitVec.ofNat (8 * z.bytes) (num at_ z.bytes)).signExtend 64) 5)) ∧
    (s.scratchOk av 512 512 = true →
      ∃ w : Lanes, exec (.ldv e a j) s = .next (s.landW .ld (vdst e) w 5 0 false) ∧ w.length = 128 ∧
        ∀ l, l < 128 → lane w l = BitVec.ofNat 32 (num (av + 4 * l) 4))

/-- R150, R153, R154: sts writes the low bytes of its source and stv its 512 bytes, little-endian, at the end of the
bundle; no other byte of the pool, no register and nothing else of the machine changes, and a load of the same range
then reads what was stored; while no phase.acq of the context is outstanding (R160). -/
def Obligations.ScratchpadStores : Prop :=
  ∀ (s : State) (a b : SSrc) (v : VSrc) (i : BitVec 6) (j : BitVec 7) (z : Size) (x y : Word),
    s.readS a = .ok x → s.readS b = .ok y → s.me.phaseAcq = [] →
    let at_ := addrOf y i z.bytes
    let av := addrOf y j 512
    let puts := fun (m : Instr) (o n : Nat) (byte : Nat → Byte) =>
      let base := s.mycore.b0 * 8192 + o
      ∃ t, exec m s = .next t ∧ t = s.updMyCore (fun c => { c with pool := t.mycore.pool }) ∧
        (∀ k, k < n → t.mycore.pool.read (base + k) = byte k) ∧
        (∀ p, (p < base ∨ base + n ≤ p) → t.mycore.pool.read p = s.mycore.pool.read p) ∧
        (∀ p, t.mem.read p = s.mem.read p)
    (s.scratchOk at_ z.bytes z.bytes = true →
      puts (.sts a b i z) at_ z.bytes (fun k => BitVec.ofNat 8 (x.toNat / 2 ^ (8 * k))) ∧
      ∃ t, exec (.sts a b i z) s = .next t ∧ ofBytes (t.mycore.scr at_ z.bytes) = x.toNat % 2 ^ (8 * z.bytes)) ∧
    (s.scratchOk av 512 512 = true →
      puts (.stv v b j) av 512 (fun k => BitVec.ofNat 8 ((lane (s.readV v) (k / 4)).toNat / 2 ^ (8 * (k % 4)))))

/-- R150, R152: a scratchpad address that is no multiple of the access size, or that leaves the region, raises the precise
scratchpad-address fault 0x0D with the address, while no setpool runs (one that runs may hold the access back, R229); a
device address that is no multiple of the size raises the alignment fault 0x0E, but for a prefetch (R158). The bundle has
no other effect. All while no phase.acq of the context is outstanding, which holds every such access back (R160). -/
def Obligations.AddressFaults : Prop :=
  ∀ (s : State) (d : BitVec 6) (e : VDst) (a b : SSrc) (v : VSrc) (i : BitVec 7) (j : BitVec 6) (k : BitVec 10) (z : Size)
    (c : Scope) (o : AmoOrder) (w : Bool) (h : PhaseKind) (x y q q' : Word), s.readS a = .ok x → s.readS b = .ok y →
    let raises := fun (m : Instr) (cause at_ : Nat) =>
      exec m s = .next (s.void (.trap ⟨cause, 0, 0, some ⟨3, 0, 0, at_, 0, 0⟩, none, false⟩))
    let bad := fun (m : Instr) (at_ n : Nat) =>
      s.me.phaseAcq = [] → (at_ % n ≠ 0 ∨ s.mycore.spsz < at_ + n ∧ s.mycore.setpool = none) → raises m 0x0D at_
    let off := fun (m : Instr) (va n : Nat) => s.quiet = true → va % n ≠ 0 → raises m 0x0E va
    bad (.lds d a i z) (addrOf x i z.bytes) z.bytes ∧ bad (.ldsS d a i z) (addrOf x i z.bytes) z.bytes ∧
    bad (.sts a b j z) (addrOf y j z.bytes) z.bytes ∧ bad (.ldv e a k) (addrOf x k 512) 512 ∧
    bad (.stv v b i) (addrOf y i 512) 512 ∧
    (d ≠ 0 → off (.ld d a i z) (addrOf x i z.bytes) z.bytes ∧ off (.ldS d a i z) (addrOf x i z.bytes) z.bytes) ∧
    off (.lda d a i z) (addrOf x i z.bytes) z.bytes ∧ off (.st a b j z) (addrOf y j z.bytes) z.bytes ∧
    off (.sta a b j z) (addrOf y j z.bytes) z.bytes ∧ off (.phase a c h) x.toNat 8 ∧
    (s.readD d = .ok q → s.readD (d + 1) = .ok q' → ∀ m ∈ [Instr.amoAdd c o d a w, .amoAnd c o d a w, .amoOr c o d a w,
      .amoXor c o d a w, .amoMin c o d a w, .amoMax c o d a w, .amoXchg c o d a w, .amoCas c o d a w],
      off m x.toNat (if w then 4 else 8))

/-! ## Device memory -/

/-- R156, R158, R226: an aligned load of device memory or of the local window makes its register empty until its value,
zero- or sign-extended, arrives; with destination s0 it only fills the line and raises no fault, whatever
its alignment; lda acquires first; a load that is refused
leaves the cause and the address for its register. Outside the local window it is device memory that is read, whether the
window is enabled or not (R225). The read is made when the slot issues (log 19). -/
def Obligations.DeviceLoads : Prop :=
  ∀ (s u : State) (d : BitVec 6) (a : SSrc) (i : BitVec 7) (z : Size) (x : Word) (bs : List Byte) (c e off : Nat)
    (tr : Trans),
    s.readS a = .ok x → s.quiet = true →
    let va := (BitVec.ofInt 64 (x.toInt + i.toInt * z.bytes)).toNat
    let n := z.bytes
    let zero := fun (l : List Byte) => BitVec.ofNat 64 (ofBytes l)
    let sign := fun (l : List Byte) => (BitVec.ofNat (8 * l.length) (ofBytes l)).signExtend 64
    let loads := fun (t : State) (w : Word) =>
      Host.Outcome.next (φ := Fault) (ρ := Refusal) (t.produce d.toNat (.load none) (some (.value w)))
    (s.deviceOk va n = true → s.loadMem va n = (u, .ok bs) →
      d ≠ 0 → exec (.ld d a i z) s = loads u (zero bs) ∧ exec (.ldS d a i z) s = loads u (sign bs)) ∧
    (let fetches := fun (t : State) => exec (.ld 0 a i z) s = .next t ∧ exec (.ldS 0 a i z) s = .next t
     s.outsideWindow va 1 = true → va < 2 ^ 64 → s.moving (s.tlbs s.cur) (s.vdevOf s.cur) va 1 = false →
      (s.translate (s.tlbs s.cur) (s.vdevOf s.cur) va .r (s.me.level == 0) = .ok tr → fetches
        ((s.fillTlb s.cur va).fillLine s.cur tr.pa (s.vdevOf s.cur) (fld tr.pte 8 7))) ∧
      (s.translate (s.tlbs s.cur) (s.vdevOf s.cur) va .r (s.me.level == 0) = .error c →
        fetches (let t := s.fillTlb s.cur va; if c = 2 then t.violate s.cur s.j va 1 else t))) ∧
    (s.deviceOk va n = true → (s.l1Acquire s.cur).loadMem va n = (u, .ok bs) →
      exec (.lda d a i z) s = loads u (zero bs)) ∧
    (s.deviceOk va n = true → s.loadMem va n = (u, .error (c, e)) → d ≠ 0 →
      ∃ v, exec (.ld d a i z) s = .next (u.produce d.toNat (.load v) (some (memFault c va none)))) ∧
    (va % n = 0 → s.mycore.target s.me.level va n = .pool off → s.mycore.windowChanging s.me.level va n = false → d ≠ 0 →
      exec (.ld d a i z) s = loads s (zero (s.mycore.pool.readN off n)) ∧
      exec (.ldS d a i z) s = loads s (sign (s.mycore.pool.readN off n)) ∧
      exec (.lda d a i z) s = loads s (zero (s.mycore.pool.readN off n)))

/-- R233, R156: the bytes of a load whose line L1 does not hold are memory's; no byte of memory changes but those L1
held written (a line that leaves L1 is written back, R234), and no register of any context, no error waiting to be found. -/
def Obligations.LoadsReadMemory : Prop :=
  ∀ (s u : State) (va : Nat) (z : Size) (t : Trans) (r : Except (Nat × Nat) (List Byte)),
    s.translate (s.tlbs s.cur) (s.vdevOf s.cur) va .r (s.me.level == 0) = .ok t → t.pa % z.bytes = 0 →
    s.errorFree = true →
    s.readCause (t.pa / 128 * 128) 128 = 0 → s.mycore.l1Line t.pa = none → s.loadMem va z.bytes = (u, r) →
    r = .ok (s.mem.readN t.pa z.bytes) ∧ (∀ a, s.holdsWritten s.cur a = false → u.mem.read a = s.mem.read a) ∧
    (∀ n j, u.ctx n j = s.ctx n j) ∧ (∀ n a, (u.core n).pool.read a = (s.core n).pool.read a)

/-- R156, R157, R235: an aligned store that passes its checks: the issuing core reads the stored bytes at the address the
base and offset give, translated; no other byte of memory changes but those L1 held written, no register and no pool
byte, no error waiting to be found. sta releases first. In the local window the pool's bytes are written (R226). -/
def Obligations.DeviceStores : Prop :=
  ∀ (s : State) (a b : SSrc) (i : BitVec 6) (z : Size) (w x : Word) (tr : Trans) (off : Nat),
    s.readS a = .ok w → s.readS b = .ok x → s.quiet = true →
    let va := (BitVec.ofInt 64 (x.toInt + i.toInt * z.bytes)).toNat
    let n := z.bytes
    let same := fun (c : Ctx) => { c with phaseRel := [] }
    let stores := fun (m : Instr) (r : State) =>
      s.deviceOk va n = true → r.translate (r.tlbs s.cur) (s.vdevOf s.cur) va .w (s.me.level == 0) = .ok tr →
      tr.pa % n = 0 → s.gone tr.pa n = false → s.errorFree = true →
      ∃ t, exec m s = .next t ∧ t.issue.void = s.issue.void ∧
        (∀ k, k < n → t.sees s.cur (tr.pa + k) = BitVec.ofNat 8 (w.toNat / 2 ^ (8 * k))) ∧
        (∀ p, (p < tr.pa ∨ tr.pa + n ≤ p) → s.holdsWritten s.cur p = false → t.mem.read p = s.mem.read p) ∧
        (∀ m j, same (t.ctx m j) = same (s.ctx m j)) ∧ (∀ m p, (t.core m).pool.read p = (s.core m).pool.read p)
    stores (.st a b i z) s ∧ stores (.sta a b i z) (s.release s.cur s.j) ∧
    (va % n = 0 → s.mycore.target s.me.level va n = .pool off → s.mycore.windowChanging s.me.level va n = false →
      let puts := fun (r : State) => r.updMyCore fun c => { c with pool := c.pool.writeN off (toBytes n w.toNat) }
      exec (.st a b i z) s = .next (puts s) ∧ exec (.sta a b i z) s = .next (puts (s.register s.cur s.j)))

/-- R157: a store that fails its checks writes nothing and is held, the first of several (log 18); a later ordering slot of
the context raises it, with the effect of a precise fault 0x11 that names the cause, the address and the store's bundle; so
does a pmark that would be honoured, alone and as a slot of its bundle. -/
def Obligations.StoreFaults : Prop :=
  ∀ (s : State) (a b : SSrc) (v : VSrc) (d : BitVec 6) (i : BitVec 6) (z : Size) (c : Scope) (o : AmoOrder) (k : PhaseKind)
    (g : Bool) (w x : Word) (e : Nat) (f : StoreFault),
    s.readS a = .ok w → s.readS b = .ok x →
    let va := (BitVec.ofInt 64 (x.toInt + i.toInt * z.bytes)).toNat
    (s.quiet = true → s.deviceOk va z.bytes = true →
      s.translate (s.tlbs s.cur) (s.vdevOf s.cur) va .w (s.me.level == 0) = .error e → s.errorFree = true →
      ∃ t, exec (.st a b i z) s = .next t ∧ t.mem = s.mem ∧
        t.me.storeFault = some (s.me.storeFault.getD ⟨e, va, s.issue.addr⟩)) ∧
    (s.rd.storeFault = some f →
      ∀ m ∈ [Instr.sta a b i z, .phase a c k, .acq c, .rel c, .fence c, .tbarr a, .cpost a b d, .coll a b d,
        .scatter v a b, .gather v a b, .tst a b d, .suspend, .endB, .amoAdd c o d a g, .amoAnd c o d a g, .amoOr c o d a g,
        .amoXor c o d a g, .amoMin c o d a g, .amoMax c o d a g, .amoXchg c o d a g, .amoCas c o d a g],
        exec m s = .next (s.void (.trap ⟨0x11, 0, 0, some ⟨3, 0, f.cause, f.addr, f.bundle, 0⟩, none, false⟩))) ∧
    (s.rd.storeFault = some f → s.me.preq = true → s.me.level = 0 → s.me.uih = false → s.mycore.settled s.j = true →
      let r : Void := .trap ⟨0x11, 0, 0, some ⟨3, 0, f.cause, f.addr, f.bundle, 0⟩, none, false⟩
      (s.issue.slots = [] → exec .pmark s = .next (s.void r)) ∧
      ∀ is_ : List Instr, .pmark ∈ is_ → (∀ m ∈ is_, schedules m = false ∧ privInfo m = none) → s.precheck is_ = .error r)

/-- R159: an atomic reads the old value at its home, writes the new one its operation gives there, 4 or 8 bytes, and
leaves its register empty for the old value; no other byte of memory changes. A releasing form releases first, an
acquiring one acquires after; at core scope only earlier phase.rel go on record (R360). In the local window the pool's bytes are used (R226). The
atomic is performed when the slot issues (log 19). -/
def Obligations.Atomics : Prop :=
  ∀ (s : State) (c : Scope) (o : AmoOrder) (d : BitVec 6) (a : SSrc) (w : Bool) (b x y : Word) (tr : Trans) (off : Nat),
    s.quiet = true → s.readS a = .ok b → s.readD d = .ok x → s.readD (d + 1) = .ok y →
    let n := if w then 4 else 8
    let m := 2 ^ (8 * n)
    let p := x.toNat % m
    let sg := fun (v : Nat) => (BitVec.ofNat (8 * n) v).toInt
    let ops : List (Instr × (Nat → Nat)) :=
      [(.amoAdd c o d a w, fun v => (v + p) % m), (.amoAnd c o d a w, fun v => v &&& p), (.amoOr c o d a w, fun v => v ||| p),
       (.amoXor c o d a w, fun v => v ^^^ p), (.amoMin c o d a w, fun v => if sg v ≤ sg p then v else p),
       (.amoMax c o d a w, fun v => if sg v ≤ sg p then p else v), (.amoXchg c o d a w, fun _ => p),
       (.amoCas c o d a w, fun v => if v = p then y.toNat % m else v)]
    let r := if o ≠ .rel then s else if c = .core then s.register s.cur s.j else s.release s.cur s.j
    let u := (r.fillTlb s.cur b.toNat).l1Flush s.cur tr.pa
    let awaits := fun (t : State) (old : Nat) => t.issue.void = s.issue.void ∧ (d ≠ 0 → t.me.feS d.toNat = .empty) ∧
      t.me.prods = s.me.prods ++
        [⟨d.toNat, 0, s.me.shadowed d.toNat, s.me.depth, .amo none, some (.value (BitVec.ofNat 64 old))⟩]
    (s.deviceOk b.toNat n = true → r.translate (r.tlbs s.cur) (s.vdevOf s.cur) b.toNat .w (s.me.level == 0) = .ok tr →
      u.readCause tr.pa n = 0 → s.upset = [] → bit (s.vdev (s.vdevOf s.cur)).hintbase 63 = false →
      ∀ e ∈ ops, ∃ t, exec e.1 s = .next t ∧ awaits t (u.mem.num tr.pa n) ∧
        t.mem.num tr.pa n = e.2 (u.mem.num tr.pa n) ∧
        (∀ q, (q < tr.pa ∨ tr.pa + n ≤ q) → t.mem.read q = u.mem.read q) ∧
        (o = .acq → c ≠ .core → ∀ l ∈ t.mycore.l1, ∀ k ∈ l.bytes, k.2.written = true)) ∧
    (b.toNat % n = 0 → s.mycore.target s.me.level b.toNat n = .pool off →
      s.mycore.windowChanging s.me.level b.toNat n = false →
      ∀ e ∈ ops, ∃ t, exec e.1 s = .next t ∧ awaits t (s.mycore.pool.num off n) ∧
        t.mycore.pool = s.mycore.pool.writeN off (toBytes n (e.2 (s.mycore.pool.num off n))))

/-- R160, R161, R234, R360: acq, rel, fence and phase. At core scope the first three do nothing but put
earlier phase.rel on record, at a release. At a wider one, after an
acquire the core reads memory at every byte it has not written; after a release no byte of its L1 is written and each
that was is in memory; after a fence it reads memory everywhere. A phase leaves for its variable's home: a release goes
on record there, an acquire has every releaser of its virtual device on record in a scope that holds the core write back.
That acq, rel and fence have their whole effect as they issue is the model's (log 42). -/
def Obligations.OrderingSlots : Prop :=
  ∀ (s : State) (a : SSrc) (c : Scope) (x : Word) (tr : Trans) (n j pa sc : Nat)
    (more : List (Nat × Nat)),
    s.quiet = true →
    (exec (.acq .core) s = .next s ∧ exec (.rel .core) s = .next (s.register s.cur s.j) ∧
      exec (.fence .core) s = .next (s.register s.cur s.j)) ∧
    (c ≠ .core → ∃ t, exec (.acq c) s = .next t ∧ t.mem = s.mem ∧
      ∀ p, s.holdsWritten s.cur p = false → t.sees s.cur p = s.mem.read p) ∧
    (c ≠ .core → ∃ t, exec (.rel c) s = .next t ∧ (∀ p, t.holdsWritten s.cur p = false) ∧ (s.errorFree = true →
      (∀ p, s.holdsWritten s.cur p = false → t.mem.read p = s.mem.read p) ∧
      ∀ p, ∀ l ∈ s.mycore.l1, ∀ k ∈ l.bytes, l.pa = p / 512 → k.1 = p % 512 → k.2.written = true →
        s.gone (p / 512 * 512) 512 = false →
        (∀ l' ∈ s.mycore.l1, l'.pa = l.pa → l' = l) → (∀ k' ∈ l.bytes, k'.1 = k.1 → k' = k) →
        t.mem.read p = k.2.val)) ∧
    (c ≠ .core → ∃ t, exec (.fence c) s = .next t ∧ ∀ p, t.sees s.cur p = t.mem.read p) ∧
    (s.readS a = .ok x → s.deviceOk x.toNat 8 = true →
      s.translate (s.tlbs s.cur) (s.vdevOf s.cur) x.toNat .r (s.me.level == 0) = .ok tr →
      exec (.phase a c .acq) s =
        .next ((s.fillTlb s.cur x.toNat).updMe fun y => { y with phaseAcq := y.phaseAcq ++ [(tr.pa, c.code)] }) ∧
      exec (.phase a c .rel) s =
        .next ((s.fillTlb s.cur x.toNat).updMe fun y => { y with phaseRel := y.phaseRel ++ [(tr.pa, c.code)] })) ∧
    (∃ t, exec (.phaseReleaseRegistration n j) s = .next t ∧ (t.ctx n j).phaseRel = [] ∧
      (∀ r ∈ (s.ctx n j).phaseRel, (⟨r.1, n, r.2⟩ : PhaseRec) ∈ t.phases) ∧ ∀ r ∈ s.phases, r ∈ t.phases) ∧
    ((s.ctx n j).phaseAcq = (pa, sc) :: more → ∃ t, exec (.phaseAcquireAtHome n j) s = .next t ∧
      (t.ctx n j).phaseAcq = more ∧
      (∀ r ∈ s.phases, r.pa = pa → r.scope ≠ 0 → s.vdevOf r.core = s.vdevOf n →
        scopeHolds r.scope r.core n = true → scopeHolds sc n r.core = true →
        r ∉ t.phases ∧ ∀ p, t.holdsWritten r.core p = false))

/-- R162-R165, R237, R123, R317: a tile request to or from the scratchpad, its entry read and its range free, is
performed at its memory and outstanding with the rows it read; a ring tile takes its place at the tail of its ring and the
tail moves on, or waits for room and takes it then; the rows of a dense or tiled tile reach their places at its completion,
and its register receives 0. Its lines are counted before its rows move (State.countTile; log 52). ldsc takes its scales, which enter the queue 128 at a time. A write-back leaves no written byte
of its line. That the rows are read when the slot issues is the model's (log 19); those of a tst are read once the last slot
of its bundle has run (R97), through the local window that the slots of the bundle see (R91). -/
def Obligations.TileTransfers : Prop :=
  ∀ (s u : State) (a b : SSrc) (d : BitVec 6) (w : TldWhere) (x y : Word) (h : Handle) (it : List Byte) (c' : Core)
    (n j k level : Nat) (p : Prod) (o : TileOp) (rows : List (Option (List Byte))) (ws : List (Option Unit)) (r : BitVec 8)
    (ring : Bool) (len coded : Nat) (q0 : List (BitVec 16)) (qs : List (Nat × List (BitVec 16))) (q : TileReq) (wid : Nat),
    (s.readS a = .ok x → s.readS b = .ok y → s.quiet = true → s.migrations = [] → s.mycore.setpool = none →
      bits x 23 23 = 0 → bits x 14 12 = 0 → bits y 63 60 = 0 → q = tileReq x.toNat y.toNat →
      let waits := fun (r : State × TileOp) =>
        Host.Outcome.next (φ := Fault) (ρ := Refusal) (r.1.produce d.toNat (.tile r.2) none)
      (s.tileEntries s.cur s.me.level q .scratch false = (u, .ok (h, it)) → s.scratchOk q.dst (q.len h false it) 128 = true →
        exec (.tld .scratch a b d) s = waits (u.tileLoad s.cur s.me.level s.me.wid q .scratch none (.ok (h, it)))) ∧
      (s.tileEntries s.cur s.me.level q .scratch true = (u, .ok (h, it)) → s.scratchOk q.dst (q.len h false it) 128 = true →
        let z := u.produce d.toNat (.tile (tstOp q s.me.wid none 0)) none
        let r : TstReq := ⟨x.toNat, y.toNat, s.me.level, s.mycore.lwbase, .ok (h, it), u.me.prods.length⟩
        (s.issue.slots = [] → s.issue.tst = none →
          let o := z.tileStore s.cur s.j s.me.level q (.ok (h, it))
          exec (.tst a b d) s = .next (o.1.updMe fun c => { c with
            prods := c.prods.modify u.me.prods.length fun p => { p with work := .tile o.2 } })) ∧
        (s.issue.slots ≠ [] →
          exec (.tst a b d) s = .next { z with issue := { s.issue with tst := some r } })) ∧
      (w ≠ .scratch → q.rows = 128 → q.cols = 128 → q.dst = 0 → q.form = false → s.me.claimed = none → h.kind < 4 →
        s.tileEntries s.cur s.me.level q w false = (u, .ok (h, it)) →
        let n := roundUp (q.len h true it) 128
        n ≤ u.mycore.half → u.mycore.claim s.j w.isB n 0 = some c' →
        exec (.tld w a b d) s = waits (((u.setCore u.cur c').updMe fun x => { x with claimWait := none }).tileLoad s.cur
          s.me.level s.me.wid q w (some (if w.isB then u.mycore.btl else u.mycore.atl)) (.ok (h, it))))) ∧
    (h.kind < 2 →
      ((s.countTile n level .r h.esz (q.parts h it)).tileRows n level h q (List.range q.rows) = (u, rows, none) →
        s.tileLoad n level wid q .scratch none (.ok (h, it)) =
          (u, ⟨false, none, .scratch, q.dst, roundUp (q.cols * h.esz) 128, rows, numAt it 8 4, none, rowMap rows, wid⟩)) ∧
      ((s.countTile n level .w h.esz ((q.parts h []).filter fun p => (s.checkRow n level h.esz p).isOk)).tstRows n j level h q
          (List.range q.rows) = (u, ws, none) →
        s.tileStore n j level q (.ok (h, it)) = (u, ⟨true, none, .scratch, q.dst, 0, [], 0, none, rowMap ws, (s.ctx n j).wid⟩))) ∧
    ((s.ctx n j).claimWait = some (ring, len, coded) → (s.core n).claim j ring len coded = some c' →
      exec (.tldRingClaim n j) s = .next ((s.setCore n c').updCtx n j fun x => { x with
        claimWait := none, claimed := some (ring, if ring then (s.core n).btl else (s.core n).atl), stall := none })) ∧
    (let c := s.core n
     let ts := if ring then c.btiles else c.atiles
     ts.length < 16 → c.setpool = none → (ts.map (·.length)).sum + len ≤ c.half →
      ∃ z, c.claim j ring len coded = some z ∧
        (ring = false → z.atiles = ts ++ [⟨false, false, false, 0, len, c.atl, 0, true, coded, j⟩] ∧
          z.atl = (c.atl + len) % max c.half 1) ∧
        (ring = true → z.btiles = ts ++ [⟨false, false, false, 0, len, c.btl, c.bslot, true, coded, j⟩] ∧
          z.btl = (c.btl + len) % max c.half 1 ∧ z.bslot = (c.bslot + 1) % 16 ∧
          (ts = [] → bits (z.ctx j).dprog 3 0 = c.bslot % 16))) ∧
    ((s.ctx n j).prods[k]? = some p → p.work = .tile o → o.err = none →
      (o.store = false → o.dest = .scratch → exec (.tileLoadCompletion n j k) s =
        .next ((s.updCore n fun c => c.putRows o.at_ o.stride o.rows).finish n j k p (.value 0))) ∧
      (o.store = true → exec (.tileStoreCompletion n j k) s = .next (s.finish n j k p (.value 0)))) ∧
    (s.readS a = .ok x → s.me.phaseAcq = [] → s.scratchOk x.toNat (8 * (r.toNat + 1)) 8 = true →
      s.mycore.scales.length + (s.mycore.scalesIn.map fun e => e.2.length).sum + 4 * (r.toNat + 1) ≤ 1024 →
      ∃ l : List (BitVec 16), exec (.ldsc a r) s = .next (s.updMyCore fun c => { c with scalesIn := c.scalesIn ++ [(s.j, l)] }) ∧
        l.length = 4 * (r.toNat + 1) ∧ ∀ i, i < l.length →
          nth 0 l i = BitVec.ofNat 16 (ofBytes (s.mycore.scr (x.toNat + 2 * i) 2))) ∧
    ((s.core n).scalesIn = (j, q0) :: qs → ∃ t, exec (.scaleQueueFill n) s = .next t ∧
      (t.core n).scales = (s.core n).scales ++ q0.take 128 ∧
      (t.core n).scalesIn = if q0.length ≤ 128 then qs else (j, q0.drop 128) :: qs) ∧
    (∃ t, exec (.writeBackArrival n k) s = .next t ∧ (∀ p, p / 512 = k / 512 → t.holdsWritten n p = false) ∧
      (s.errorFree = true → ∀ p, s.holdsWritten n p = false → t.mem.read p = s.mem.read p))
/-! ## Producers and commands -/

/-- R54, R205, R389: a variable producer of the running code completes: its register is full with the value, or, for a
refused access, empty-faulted with the compact record; the producer is gone and the event flag of the context is set
(R96). A post completes with its status (R171), unless it waits for a page that migrates (R268) or a unit in transition
(R230). -/
def Obligations.ProducersComplete : Prop :=
  ∀ (s u : State) (n j k : Nat) (p : Prod) (w : Word) (f : FaultRec) (v : Option Viol) (o : PostOp),
    (s.ctx n j).prods[k]? = some p → p.live (s.ctx n j) = true → p.dst ≠ 0 →
    let reply := fun (i : Instr) (work : Option Viol → Work) =>
      (p.work = work none → p.done = some (.value w) →
        ∃ t, exec i s = .next t ∧ (t.ctx n j).holds p.dst w ∧ (t.ctx n j).ev = true ∧
          (t.ctx n j).prods = dropAt (s.ctx n j).prods k) ∧
      (p.work = work v → p.done = some (.fail f) → f.map = none →
        ∃ t, exec i s = .next t ∧ (t.ctx n j).feS p.dst = .faulted ∧ (t.ctx n j).regS p.dst = f.compact ∧
          (t.ctx n j).ev = true ∧ (t.ctx n j).prods = dropAt (s.ctx n j).prods k)
    reply (.loadCompletion n j k) .load ∧ reply (.amoReply n j k) .amo ∧
    (p.work = .post o → s.postHeld n o p.done = false → s.postEnd n j o p.done = (u, .value w) → p.live (u.ctx n j) = true →
      ∃ t, exec (.cpostCompletion n j k) s = .next t ∧ (t.ctx n j).holds p.dst w ∧ (t.ctx n j).ev = true)

/-- R170, R171, R177-R179, R181: cpost and coll take their image from the scratchpad and release the context's stores. The
claim at the queue header gives the status: 2^63 + 2 for an image that is not valid, 2^63 + 1 for a full queue, 2^63 + 3
for a header that is not valid, which is logged (R274), and otherwise the write index modulo 2^32, with the slot; a header
of no queue answers with cause 3 (log 29). cpost makes it at its completion, coll as it issues, with its party (logs 19,
24). gather and scatter hand their active lanes, the entry and the row area
to the copy engine. A lane outside the extents gets the pad value or stores nothing, and sets its bit; another moves its
row, its pages pinned; an operation with no active lane writes its bitmap (the moves of its rows: log 34). No page
migrates in these clauses (R268), and what a coll writes as it issues lies in no unit in transition (R229). -/
def Obligations.EngineCommands : Prop :=
  ∀ (s u : State) (a b : SSrc) (d : BitVec 6) (v : VSrc) (x y : Word) (h : Handle) (k i : Nat) (g : GatherOp)
    (row bs : List Byte) (bad : Bool) (n j w : Nat) (o : PostOp) (qh : QHdr) (t : State) (e : Nat × Nat)
    (sl : Option (Nat × List Byte)) (slot : Nat),
    (o.bad = true → s.postClaim n j o = (s, .ok (2 ^ 63 + 2, none))) ∧
    (o.bad = false → (s.vdev (s.vdevOf n)).hasQueue o.queue = false → s.postClaim n j o = (s, .error (3, o.queue))) ∧
    (o.bad = false → (s.vdev (s.vdevOf n)).hasQueue o.queue = true →
      s.devRead (s.vdevOf n) o.queue 64 (o.level == 0) = (u, .ok bs) →
      s.devCheck [] (s.vdevOf n) o.queue 64 .w (o.level == 0) = .ok () →
      (qHdr bs false = none → s.postClaim n j o =
        (u.errorLog (numAt bs 25 1 / 4 % 4) 3 o.queue, .ok (2 ^ 63 + 3, none))) ∧
      (qHdr bs false = some qh →
      (qh.full = true → s.postClaim n j o = (u, .ok (2 ^ 63 + 1, none))) ∧
      (qh.full = false → s.postClaim n j o = (t, .ok (w, sl)) → w = qh.wi % 2 ^ 32 ∧
        sl = some (qh.slot qh.wi, o.image.take 2 ++ toBytes 2 (qh.seq qh.wi) ++ toBytes 4 (numAt o.image 4 4 / 16 * 16)
          ++ o.image.drop 8) ∧
        (o.coll = true →
          collParty (s.vdevOf n) n o.queue (qh.slot qh.wi) o.wid (ctxNum n j) o.image ∈ t.parties)))) ∧
    (s.postClaim n j o = (t, .ok (w, none)) → s.postEnd n j o none = (t, .value (BitVec.ofNat 64 w))) ∧
    (s.postClaim n j o = (t, .ok (w, some (slot, bs))) → t.postWrite n j o slot bs = (u, .ok ()) →
      s.postEnd n j o none = (u, .value (BitVec.ofNat 64 w))) ∧
    (s.readS a = .ok x → s.readS b = .ok y → s.quiet = true → s.migrations = [] →
      let r := s.release s.cur s.j
      let op := fun (c : Bool) (q img : Word) => (⟨c, s.scrOld img.toNat 64, q.toNat, s.me.level,
        if c then !s.collOk s.cur (s.scrOld img.toNat 64)
        else !headOk (s.scrOld img.toNat 64) false, none, s.me.wid⟩ : PostOp)
      let clear := fun (img : Word) => s.collOk s.cur (s.scrOld img.toNat 64) = false ∨
        s.collMoving s.cur (s.scrOld img.toNat 64) = false
      let posts := fun (t : State) (o : PostOp) (c : Option Done) =>
        Host.Outcome.next (φ := Fault) (ρ := Refusal) (t.produce d.toNat (.post o) c)
      (s.scratchOk y.toNat 64 64 = true → exec (.cpost a b d) s = posts r (op false x y) none) ∧
      (s.scratchOk x.toNat 64 64 = true → clear x →
        (r.postClaim s.cur s.j (op true y x) = (t, .error e) →
          exec (.coll a b d) s = posts t (op true y x) (some (memFault e.1 e.2 none))) ∧
        (r.postClaim s.cur s.j (op true y x) = (t, .ok (w, none)) →
          exec (.coll a b d) s = posts t (op true y x) (some (.value (BitVec.ofNat 64 w)))) ∧
        (r.postClaim s.cur s.j (op true y x) = (t, .ok (w, some (slot, bs))) →
          exec (.coll a b d) s =
            posts t { op true y x with image := bs, claimed := some slot } (some (.value (BitVec.ofNat 64 w))))) ∧
      (let idx := (s.readV v).map BitVec.toNat
       let e := x.toNat
       let area := y.toNat
       let rows := (activeLanes idx).length * h.rs (gBase e) (gLen e)
       gOk e = true → fld area 63 53 = 0 → fld area 52 50 ≤ 4 →
       s.gHandle (s.vdevOf s.cur) e (s.me.level == 0) = (u, .ok h) → s.localFits (gBar s.cur area) 32 16 = true →
       s.scratchOk (fld area 23 0) (max 1 rows) 128 = true →
        ∀ m ∈ [(Instr.gather v a b, false), (.scatter v a b, true)], ∃ t q, exec m.1 s = .next t ∧
          t.gathers = s.gathers ++ [q] ∧ q.scatter = m.2 ∧ q.handle = .ok h ∧ q.idx = idx ∧ q.todo = activeLanes idx ∧
          q.rows = fld area 23 0 ∧ q.bar = gBar s.cur area ∧ q.dim = gDim e ∧ q.bitmap = 0)) ∧
    (s.gathers[k]? = some g → s.migrations = [] →
      (g.handle = .ok h → i ∈ g.todo →
        let c := nth 0 g.idx i
        let at_ : Local := ⟨0, g.core, g.rows + rankOf g.idx i * g.rs⟩
        let eng := s.gEng g
        let hold := (s.holdPages eng.vdev (if h.e g.dim ≤ c then []
          else (h.rowRuns g.base g.len g.dim c).filterMap fun r => r.1.map fun a => (a, r.2 * h.esz))).2
        let z := s.pin hold
        let f := { g with pinned := g.pinned ++ hold }
        (g.scatter = false → z.gatherLane eng h g.base g.len g.dim c = (u, row, bad, none) →
          u.localFits at_ g.rs 1 = true →
          exec (.gatherRow k i) s = .next ((u.localWrite at_ row).gServed k f i bad)) ∧
        (g.scatter = true → (∀ m ∈ g.todo, m < i → nth 0 g.idx m ≠ c) →
          z.scatterLane eng h g.base g.len g.dim c (z.localRead at_ g.rs) = (u, bad, none) →
          exec (.scatterRow k i) s = .next (u.gServed k f i bad)) ∧
        (h.e g.dim ≤ c →
          (s.gatherLane eng h g.base g.len g.dim c).2 =
            (tab (h.rs g.base g.len) (fun m => nth 0 (toBytes h.esz h.pad) (m % h.esz)), true, none) ∧
          s.scatterLane eng h g.base g.len g.dim c row = (s, true, none))) ∧
      (g.handle = .ok h → g.todo = [] →
        let z := ({ s with gathers := s.gathers.eraseIdx k }).gLast g 0 false
        (g.scatter = false → exec (.gatherRow k i) s = .next z) ∧ (g.scatter = true → exec (.scatterRow k i) s = .next z)))

/-- R166-R169, R311, R363: tbinit, tbarr and tbexp on a barrier of the issuing core are applied at once, on another of its
virtual device they are sent after a release, outside it they are held as a store fault of cause 7 where the offset lies in
its space and raise the scratchpad-address fault where it does not; an update counts down arrivals and
bytes, saturates with OVF, and completes the phase when both are 0. tbwait on a phase that has passed gets the result;
on the current one it waits, or asks to be parked, its register empty. Updates arrive in order; a parked record waits only
while its phase is the current one. That a tbwait reads the barrier after the stores of its own bundle is the model's (log
89). -/
def Obligations.Barriers : Prop :=
  ∀ (s : State) (a b : SSrc) (d : BitVec 6) (x y : Word) (l : Local) (bar : Barrier) (arr add sub : Nat) (err : Bool)
    (m : BarMsg) (ms : List BarMsg) (cl : Nat) (q : Parked) (qs : List Parked),
    (s.readS a = .ok x → s.readS b = .ok y → s.quiet = true → localOf (some s.cur) x.toNat = some l →
      (l.space = 0 → l.loc = s.cur → s.scratchOk l.off 16 16 = true →
        (bits y 63 17 = 0 → exec (.tbinit a b) s = .next (s.barInit l (y.toNat % 2 ^ 17))) ∧
        exec (.tbarr a) s = .next ((s.register s.cur s.j).barUpdate l 1 0 0 false false) ∧
        exec (.tbexp a b) s = .next ((s.register s.cur s.j).barUpdate l 0 (y.toNat % 2 ^ 40) 0 false false) ∧
        (let c := barrierOf (s.localRead l 16)
         (c.phase ≠ y.toNat % 16 → ∃ t, exec (.tbwait a b d) s = .next t ∧
          t.me.holds d.toNat (BitVec.ofNat 64 (c.phase + (if c.ovf then 16 else 0) + if c.err then 32 else 0))) ∧
         (c.phase = y.toNat % 16 → c.park = false → exec (.tbwait a b d) s =
          .next (s.produce d.toNat (.tbwait 0 s.cur l.off (y.toNat % 16)) none)) ∧
         (c.phase = y.toNat % 16 → c.park = true → exec (.tbwait a b d) s =
          .next ((s.updMe fun z => z.emptyS d.toNat).request (.park d.toNat 0 s.cur l.off (y.toNat % 16)))))) ∧
      ((l.space = 0 → l.loc ≠ s.cur) → s.localVdev l = s.vdevOf s.cur → s.localFits l 16 16 = true →
        let msg := fun (r e : Nat) => (⟨s.vdevOf s.cur, l.space, l.loc, l.off, r, e, 0, false, none⟩ : BarMsg)
        let sends := fun (i : Instr) (m : BarMsg) =>
          exec i s = .next { s.release s.cur s.j with barMsgs := s.barMsgs ++ [m] }
        sends (.tbarr a) (msg 1 0) ∧ sends (.tbexp a b) (msg 0 (y.toNat % 2 ^ 40))) ∧
      (s.localVdev l ≠ s.vdevOf s.cur →
        (s.localFits l 16 16 = true →
          let t := s.holdFault s.cur s.j 7 x.toNat x.toNat s.issue.addr
          exec (.tbarr a) s = .next t ∧ exec (.tbexp a b) s = .next t) ∧
        (s.localFits l 16 16 = false → l.space = 0 →
          let t := s.void (.trap ⟨0x0D, 0, 0, some ⟨3, 0, 0, l.off, 0, 0⟩, none, false⟩)
          exec (.tbarr a) s = .next t ∧ exec (.tbexp a b) s = .next t))) ∧
    (let r := bar.update arr add sub err
     let total : Int := bar.pendBytes + add - sub
     let bytes := (min (max 0 total) (2 ^ 40 - 1)).toNat
     let done := bar.pendArr ≤ arr ∧ bytes = 0
     r.1.err = (bar.err || err) ∧ (bar.ovf = true → r.1.ovf = true) ∧
     (arr ≤ bar.pendArr → 0 ≤ total → total < 2 ^ 40 → r.1.ovf = bar.ovf) ∧
     ((bar.pendArr < arr ∨ total < 0 ∨ 2 ^ 40 ≤ total) → r.1.ovf = true) ∧ r.1.expArr = bar.expArr ∧
     r.1.pendBytes = bytes ∧ (done → r.2 = true ∧ r.1.phase = (bar.phase + 1) % 16 ∧ r.1.pendArr = bar.expArr) ∧
     (¬ done → r.2 = false ∧ r.1.phase = bar.phase ∧ r.1.pendArr = bar.pendArr - arr)) ∧
    (bar.phase < 16 → bar.pendArr < 2 ^ 16 → bar.pendBytes < 2 ^ 40 → bar.expArr < 2 ^ 16 → bar.high < 2 ^ 49 →
      barrierOf bar.bytes = bar) ∧
    (s.barMsgs = m :: ms → exec (.barrierUpdateArrival 0) s = .next ({ s with barMsgs := ms }.barArrive m)) ∧
    ((s.cluster cl).parked = q :: qs → q.applied = false →
      let l : Local := ⟨q.space, q.loc, q.off⟩
      let t := s.drainBar l
      let c := barrierOf (t.localRead l 16)
      (c.phase = q.seen → exec (.parkApply cl) s = .next (t.updCluster cl fun c => { c with
        parked := c.parked.map fun z => if z == q then { z with applied := true } else z })) ∧
      (c.phase ≠ q.seen → exec (.parkApply cl) s =
        .next ((t.setParkedOf cl ((t.cluster cl).parked.filter fun z => z != q)).unpark cl q c.result)))

/-- R182-R185, R319: plread, and plwait of a counter that has its planes or is frozen, return the counter at once; another
plwait waits. plcancel freezes a counter that is neither frozen nor complete. nxt lands the lowest identifier its
cluster holds of the launch's dispenser, 2^64 - 1 once it is exhausted, 2^64 - 2 otherwise, in s56 to s59 in turn. That
plread and plwait read the counter after the stores of their own bundle is the model's (log 89). -/
def Obligations.PlanesAndIdentifiers : Prop :=
  ∀ (s : State) (a : SSrc) (d : BitVec 6) (p : BitVec 4) (x : Word) (h : Held) (l : Launch), s.readS a = .ok x →
    (s.scratchOk x.toNat 8 8 = true →
      let c := s.mycore.plane x.toNat
      let now := BitVec.ofNat 64 (ofBytes (s.mycore.scr x.toNat 8))
      let reached := min p.toNat c.cap ≤ c.planes ∨ c.err = true ∨ c.cancelled = true
      (∃ t, exec (.plread a d) s = .next t ∧ t.me.holds d.toNat now) ∧
      (reached → ∃ t, exec (.plwait a p d) s = .next t ∧ t.me.holds d.toNat now) ∧
      (¬ reached → exec (.plwait a p d) s = .next (s.produce d.toNat (.plane x.toNat p.toNat) none)) ∧
      ((c.err = true ∨ c.cancelled = true ∨ c.cap = c.planes) → exec (.plcancel a) s = .next s) ∧
      (c.err = false → c.cancelled = false → c.cap ≠ c.planes → s.counterOf s.cur x.toNat = none →
        exec (.plcancel a) s =
          .next ((s.setPlane s.cur x.toNat { c with cancelled := true, reason := 0 }).evAll s.cur))) ∧
    (s.me.held = some h → s.launch h.launch = some l → x.toNat < 16 → x.toNat < l.disps.length →
      let e := (s.cluster (clusterOf s.cur)).batch h.launch x.toNat
      let lands := fun (t : State) (v : Word) => exec (.nxt a) s = .next t ∧
        t.me.nxp = (s.me.nxp + 1) % 4 ∧ t.me.flights = s.me.flights ++ [⟨.nxt, .s (56 + s.me.nxp), v, [], 12, 0, false,
          s.issue.pos, s.me.depth, s.me.shadowed (56 + s.me.nxp), .none⟩]
      (∀ k ∈ e.ids, (∀ m ∈ e.ids, k ≤ m) → ∃ t, lands t (BitVec.ofNat 64 k) ∧
        ((t.cluster (clusterOf s.cur)).batch h.launch x.toNat).ids = e.ids.erase k) ∧
      (e.ids = [] → ∃ t, lands t (if e.done then 0xFFFFFFFFFFFFFFFF else 0xFFFFFFFFFFFFFFFE)))

/-- R143-R147, R201, R302: pmov writes an operand port or, at a trigger port of a free unit, starts the operation with the
operands of its context, checked there, and leaves the result ports empty; pget delivers a result, 0 where none was ever
made, and waits for one that runs. An operation ends after its cycles with its results at their ports, or, one cycle after
its start, with every port failed and the code of its first bad operand, and the unit free (R307 for one that waits for an
earlier one of another unit). When its operands are read is log 39's; the unit numbers of the compact record are log
105's. -/
def Obligations.PortUnits : Prop :=
  ∀ (s u : State) (o : BitVec 8) (a : SSrc) (v : VSrc) (d : BitVec 6) (x w : Word) (n j unit c : Nat) (vs : List Nat)
    (p : UnitOp),
    (s.readS a = .ok x →
      (trigUnit o.toNat = none →
        exec (.pmovS o a) s = .next (s.updMe fun y => { y with units := { y.units with ports := y.units.ports.set o.toNat x } })) ∧
      (trigUnit o.toNat = some unit → s.mycore.setpool = none →
        (s.mycore.unitRuns unit = none → ∃ t q, exec (.pmovS o a) s = .next t ∧ t.mycore.unitRuns unit = some q ∧
          q.ctx = s.j ∧ q.start = s.mycore.clock ∧ q.trig = o.toNat ∧ q.ports = s.me.units.ports ∧
          q.val0 = s.me.units.val0 ∧ q.val1 = s.me.units.val1 ∧ q.cbctl = s.me.cbctl ∧ q.cbtol = s.me.cbtol ∧
          q.units = s.me.units ∧ q.cb = s.me.cb ∧
          (q.check s.mycore.spsz = .ok () → q.code = none ∧ q.last = s.mycore.clock + q.cycles) ∧
          (q.check s.mycore.spsz = .error c → q.code = some c ∧ q.last = s.mycore.clock + 1) ∧
          ∀ r ∈ trigResults o.toNat, t.me.units.res.get .never r = .empty) ∧
        ((s.mycore.unitRuns unit).isSome = true → exec (.pmovS o a) s = .next (s.void (.stall .unit))))) ∧
    (exec (.pmovV 0x40 v) s = .next (s.updMe fun y => { y with units := { y.units with val0 := s.readV v } })) ∧
    (exec (.pmovV 0x41 v) s = .next (s.updMe fun y => { y with units := { y.units with val1 := s.readV v } })) ∧
    (let r := s.me.units.res.get .never o.toNat
     (r = .never → ∃ t, exec (.pget d o) s = .next t ∧ t.me.holds d.toNat 0) ∧
     (r = .value w → ∃ t, exec (.pget d o) s = .next t ∧ t.me.holds d.toNat w) ∧
     (r = .failed c → d ≠ 0 → ∃ t, exec (.pget d o) s = .next t ∧ t.me.feS d.toNat = .faulted ∧
      t.me.regS d.toNat = (⟨0x21, o.toNat / 0x40, o.toNat + 256 * c, none, false⟩ : FaultRec).compact) ∧
     (r = .empty → exec (.pget d o) s = .next (s.produce d.toNat (.pget o.toNat) none))) ∧
    (let ends := fun (i : Instr) (port cycles : Nat) (f : UnitOp → State × List Nat) =>
      ((p.trig = port → p.cycles = cycles) ∧ ((s.core n).opOf j port = some p → (s.core n).unitWaits p = false →
        ((s.core n).clock ≤ p.last → exec i s = .next s) ∧
        (p.last < (s.core n).clock →
          (p.code = none → f p = (u, vs) → vs.length = (trigResults port).length → ∃ t, exec i s = .next t ∧
            (∀ e ∈ (trigResults port).zip vs, (t.ctx n j).units.res.get .never e.1 = .value (BitVec.ofNat 64 e.2)) ∧
            (t.core n).unitRuns ((trigUnit port).getD 0) = none) ∧
          (p.code = some c → ∃ t, exec i s = .next t ∧
            (∀ r ∈ trigResults port, (t.ctx n j).units.res.get .never r = .failed c) ∧
            (t.core n).unitRuns ((trigUnit port).getD 0) = none))))
     let blocks := (p.val 0x06 + 1023) / 1024
     ends (.cbuDedup n j) 0x20 8 (s.dedup n j) ∧
     ends (.cbuRemap n j) 0x21 (8 + (p.val 0x07 + p.mapWidth) * blocks) (s.remap n j) ∧
     ends (.cbuPair n j) 0x22 (8 + (p.val 0x07 + p.val 0x08 + widthFor p.pairCount) * blocks + 16) (s.pair n j) ∧
     ends (.cbuExpand n j) 0x23 (8 + p.val 0x07 * blocks + (p.val 0x06 * tagBytes (p.val 0x09) + 127) / 128)
      (s.expand n j) ∧
     ends (.rcuRun n j) 0x50 (16 + p.units.pairs + 4 * ((p.units.values p).length - bits p.cbctl 4 0)) (s.recluster n j) ∧
     ends (.htbBuild n j) 0x90 (48 + p.val 0x82 * ((p.val 0x81 + 1023) / 1024)) (s.buildTable n)) ∧
    (∀ (idx : List Nat) (b : Nat), (∀ k ∈ idx, k < 2 ^ b) → readPlanes (writePlanes idx b) idx.length b = idx) ∧
    (∀ k, 1 ≤ k → k ≤ 2 ^ widthFor k ∧ 1 ≤ widthFor k ∧ (2 < k → 2 ^ (widthFor k - 1) < k))

/-- R112, R127, R136, R140-R142: codebook loads, stores, gets and puts; a decoder table's lengths and their status; the
beat programs. Each takes its image from the scratchpad as it stands before the bundle. -/
def Obligations.TablesOfACore : Prop :=
  ∀ (s : State) (a : SSrc) (v : VSrc) (r e : BitVec 4) (n : BitVec 3) (d : BitVec 6) (b : BitVec 8) (c : BitVec 7)
    (x : Word) (m j k lens st : Nat) (p : Prod), s.readS a = .ok x →
    let old := s.scrOld x.toNat
    let cb := s.me.cb.get Codebook.reset r.toNat
    (s.scratchOk x.toNat 144 16 = true → s.mycore.cbBusy s.j r.toNat = false →
      (cbImageOk (old 144) = true → exec (.cbld r a) s =
        .next (s.updMe fun y => { y with cb := y.cb.set r.toNat (codebookOf (old 144)) })) ∧
      (cbImageOk (old 144) = false → exec (.cbld r a) s =
        .next (s.void (.trap ⟨0x0C, 0, 0, some ⟨3, 0, 0, x.toNat, 0, 0⟩, none, false⟩))) ∧
      (∃ t, exec (.cbst r a) s = .next t ∧ t.mycore.scr x.toNat 144 = cb.image ∧ cb.image.length = 144)) ∧
    (s.mycore.cbBusy s.j r.toNat = false →
      (∃ w : Lanes, exec (.cbget e r) s = .next (s.landW .cbget (.v e.toNat) w 2 0 false) ∧
        (∀ i, i < 16 → lane w i = nth 0 cb.entry i ∧ lane w (16 + i) = nth 0 cb.pop i) ∧
        lane w 32 = BitVec.ofNat 32 (cb.n % 32 + cb.tag % 4 * 256) ∧ ∀ i, 32 < i → lane w i = 0) ∧
      (∃ t, exec (.cbput r v) s = .next t ∧
        let q := t.me.cb.get Codebook.reset r.toNat
        q.n = cb.n ∧ q.tag = cb.tag ∧ q.pop = cb.pop ∧
        ∀ i, i < 16 → nth 0 q.entry i = if i < cb.n then
          BitVec.ofNat 32 ((lane (s.readV v) i).toNat % 2 ^ (8 * if cb.tag = 0 then 4 else 2)) else nth 0 cb.entry i)) ∧
    (s.scratchOk x.toNat 8 8 = true →
      let len := ofBytes (old 8)
      exec (.lddt n a d) s = .next (s.produce d.toNat (.lddt n.toNat len
        (if len = 0 then 2 else if 2 ^ 15 < codeSpace len then 1 else 0)) none)) ∧
    ((x.toNat % 8 ≠ 0 ∨ s.mycore.spsz < x.toNat + 8 ∧ s.mycore.setpool = none) →
      exec (.lddt n a d) s = .next (s.produce d.toNat (.lddt n.toNat 0 3) none)) ∧
    ((s.ctx m j).prods[k]? = some p → p.live (s.ctx m j) = true → p.work = .lddt n.toNat lens st →
      (∀ i q l u, i < k → (s.ctx m j).prods[i]? = some q → q.work ≠ .lddt n.toNat l u) →
      (st ≠ 0 → ∃ t, exec (.lddtCompletion m j n.toNat) s = .next t ∧
        (t.ctx m j).holds p.dst (BitVec.ofNat 64 (2 ^ 63 + st)) ∧ (t.ctx m j).dt = (s.ctx m j).dt) ∧
      (let y := (s.ctx m j).dt.get DTable.reset n.toNat
       let z := if y.newer = some false then y.b1 else y.b0
       st = 0 → (z.valid = false ∨ z.count = 0) → ∃ t, exec (.lddtCompletion m j n.toNat) s = .next t ∧
        (t.ctx m j).holds p.dst (BitVec.ofNat 64 (y.g % 16)) ∧
        let new := (t.ctx m j).dt.get DTable.reset n.toNat
        new.g = (y.g + 1) % 16 ∧
        (y.newer = some false → new.b1 = ⟨true, y.g % 16, lens, 0⟩ ∧ new.b0 = y.b0) ∧
        (y.newer ≠ some false → new.b0 = ⟨true, y.g % 16, lens, 0⟩ ∧ new.b1 = y.b1))) ∧
    (s.scratchOk x.toNat (4 * (c.toNat + 1)) 4 = true →
      let word := fun (i : Nat) => ofBytes (((old (4 * (c.toNat + 1))).drop (4 * i)).take 4)
      ((∀ i, i < c.toNat + 1 → beatOk (word i) = true) → ∃ t, exec (.mbld b a c) s = .next t ∧
        ∀ i, i < c.toNat + 1 → t.mycore.beats.get 0x20000000 ((b.toNat + i) % 256) = BitVec.ofNat 32 (word i)) ∧
      (∀ i, i < c.toNat + 1 → beatOk (word i) = false → (∀ q, q < i → beatOk (word q) = true) →
        exec (.mbld b a c) s = .next (s.void (.trap ⟨0x0B, 0, i, none, none, false⟩))))

/-! ## Control -/

/-- R79-R81, R321: pbr and pbri put a target in flight to its branch register and start its fetch, the target of pbri counted
from the bundle's own address. A branch that is not taken changes nothing. br, call and ret that are taken go to the target
their branch register held before the bundle, after 3 bubble cycles less those since the target was prepared, in which
nothing issues; call also puts the next bundle's address in flight to b7, its fetch prepared as the call issues. No other
register and no byte of memory changes. -/
def Obligations.Branches : Prop :=
  ∀ (s : State) (n q : BitVec 3) (g : Bool) (a : SSrc) (i : BitVec 19) (x : Word),
    let now := s.mycore.clock
    let lands := fun (k : Nat) (target : Word) =>
      (⟨.btarget, .b k, target, [], 1, 0, false, s.issue.pos, s.me.depth, false, .none⟩ : Flight)
    let taken := (if q = 0 then true else s.rd.p / 2 ^ q.toNat % 2 == 1) != g
    let bubbles := fun (k : Nat) => match s.me.prep.find? fun e => e.1 == k with
      | some e => 3 - (now - e.2)
      | none => 3
    let prepared := fun (target : Word) => s.updMe fun y => { y with
      flights := y.flights ++ [lands n.toNat target], prep := y.prep.set n.toNat now }
    let goes := fun (t : State) (k : Nat) (fs : List Flight) (prep : Tbl Nat) =>
      t.me.pc = (s.rd.b.get 0 k).toNat ∧ t.me.flights = s.me.flights ++ fs ∧ t.me.prep = prep ∧ t.me.b = s.me.b ∧
      t.me.s = s.me.s ∧ t.me.fe = s.me.fe ∧ t.me.v = s.me.v ∧ t.me.p = s.me.p ∧ t.mem = s.mem ∧
      t.mycore.pool = s.mycore.pool ∧ t.mycore.clock = now + bubbles k ∧
      (∀ r ∈ [0x120, 0x121], t.mycore.counters.get 0 r = s.mycore.counters.get 0 r + BitVec.ofNat 64 (bubbles k)) ∧
      t.me.counters.get 0 0x109 = s.me.counters.get 0 0x109 + BitVec.ofNat 64 (bubbles k)
    -- pbr, pbri
    (s.readS a = .ok x → exec (.pbr n a) s = .next (prepared x)) ∧
    exec (.pbri n i) s = .next (prepared (BitVec.ofInt 64 (s.issue.addr + 4 * i.toInt))) ∧
    -- br
    (taken = true → ∃ t, exec (.br n q g) s = .next t ∧ goes t n.toNat [] s.me.prep) ∧
    (taken = false → exec (.br n q g) s = .next s) ∧
    -- call
    (taken = true → ∃ t, exec (.call n q g) s = .next t ∧
      goes t n.toNat [lands 7 (BitVec.ofNat 64 s.issue.next)] (s.me.prep.set 7 now)) ∧
    (taken = false → exec (.call n q g) s = .next s) ∧
    -- ret
    (taken = true → ∃ t, exec (.ret q g) s = .next t ∧ goes t 7 [] s.me.prep) ∧
    (taken = false → exec (.ret q g) s = .next s)

/-- R88-R90, R84-R87, R4, R381: what a trap, a return, pmark, suspend and end do as the last slot of their bundle, nothing
else having been requested and nothing outstanding that they wait for; and the faults of those issued where they may not
be, the fault of a register left empty-faulted among them, an original that a user-level handler's copy hides too. An
interrupt due at the boundary comes before a pmark, and so does a trap of its bundle, which leaves the mark refused. Of a bundle
whose item has been killed neither a trap nor a suspend is taken (R341). A
record that leaves its context leaves it idle. An end waits at its boundary for the producers and unit operations that are
outstanding. In the model an end in a user-level handler ends the item (log 90), an end waits before it issues only for a
producer of an earlier bundle that will or may fail (log 91), a deferred fault comes before the fault of an unsettled end (log 107),
and a uret at supervisor level is an illegal return (log 92). -/
def Obligations.BoundaryEffects : Prop :=
  ∀ (s : State) (i : BitVec 16) (p : Prod),
    let x := s.me
    let u := s.updMe fun y => { y with pend := .none }
    let seen := { x with uih := false }
    let fails := fun (p : Prod) => p.dst ≠ 0 ∧ p.target = 0 ∧ s.mayFail s.cur s.j p = true
    let raises := fun (m : Instr) (cause tinfo : Nat) =>
      exec m s = .next (s.void (.trap ⟨cause, 0, tinfo, none, none, false⟩))
    let first := x.timer || x.notice || s.timerWithin s.cur s.j s.bundleCycles
    (s.issue.slots = [] → s.issue.ctl = .none → s.issue.tst = none → x.killed = false →
      (s.issue.mark = true → x.preq = true → x.level = 0 → x.uih = false → s.mycore.unitBusy s.j = false →
        exec (.trap i) s = .next (((({ s with issue := { s.issue with mark := false } } : State).updMe fun y =>
          y.count 0x10A 1).updMe fun y => { y with pend := .none }).takeTrap s.cur s.j ⟨0x30, i.toNat, 0, none, none, false⟩
          x.pc))) ∧
    (s.issue.slots = [] → s.issue.ctl = .none → s.issue.tst = none → s.issue.mark = false → x.killed = true →
      exec (.trap i) s = .next s ∧
      (s.quiet = true → s.mycore.settled s.j = true → x.level = 0 → x.uih = false → exec .suspend s = .next s)) ∧
    (s.issue.slots = [] → s.issue.ctl = .none → s.issue.tst = none → s.issue.mark = false → x.killed = false →
      (s.mycore.unitBusy s.j = false →
        exec (.trap i) s = .next (u.takeTrap s.cur s.j ⟨0x30, i.toNat, 0, none, none, false⟩ x.pc)) ∧
      (s.rd.level = 1 → x.depth ≠ 0 → s.mycore.returnBusy s.j = false →
        exec .reti s = .next (u.retiNow s.cur s.j (s.undone (x.depth - 1)))) ∧
      (x.uih = true → x.level = 0 → s.mycore.returnBusy s.j = false →
        exec .uret s = .next (u.uretNow s.cur s.j (s.undone 0))) ∧
      (x.preq = false ∨ x.level = 1 ∨ x.uih = true → exec .pmark s = .next s) ∧
      (x.preq = true → x.level = 0 → x.uih = false → s.mycore.settled s.j = false →
        exec .pmark s = .next (s.updMe fun y => y.count 0x10A 1)) ∧
      (x.preq = true → x.level = 0 → x.uih = false → s.quiet = true → first = true →
        exec .pmark s = .next (s.updMe fun y => y.count 0x10A 1)) ∧
      (s.quiet = true → s.mycore.settled s.j = true → s.mycore.busy s.j = false → s.recordMoving s.cur s.j = false →
        (x.level = 0 → x.uih = false → x.preq = true → first = false →
          exec .pmark s = .next ((u.updMe fun y => y.count 0x10B 1).leaveAt s.cur s.j x.pc .light)) ∧
        (x.level = 0 → x.uih = false → exec .suspend s = .next (u.leaveAt s.cur s.j x.pc .suspend)) ∧
        (s.rd.prods = [] → (∀ c, c < 64 → x.feS c ≠ .faulted ∧ seen.feS c ≠ .faulted) →
          (x.level ≠ 1 → exec .endB s = .next (u.endNow s.cur s.j)) ∧
          (x.level = 1 → exec .endB s = .next (u.endFailed s.cur s.j))))) ∧
    (u.leaveAt s.cur s.j x.pc .suspend).me.held = none ∧ (u.endNow s.cur s.j).me.held = none ∧
    (u.endFailed s.cur s.j).me.held = none ∧
    (s.rd.level = 0 → raises .reti 0x02 0x02) ∧ (s.rd.level = 1 → x.depth = 0 → raises .reti 0x04 0) ∧
    ((x.uih = false ∨ x.level ≠ 0) → raises .uret 0x04 0) ∧
    (s.rd.storeFault = none → (x.level ≠ 0 ∨ x.uih = true) → raises .suspend 0x05 1) ∧
    (s.rd.storeFault = none → x.anyFaulted ≠ none → exec .endB s = .next (s.void (x.deferred (x.anyFaulted.getD 0)))) ∧
    (s.rd.storeFault = none → x.anyFaulted = none → seen.anyFaulted ≠ none →
      exec .endB s = .next (s.void (seen.deferred (seen.anyFaulted.getD 0)))) ∧
    (s.rd.storeFault = none → x.faultAtEnd = none → p ∈ s.rd.prods → fails p → exec .endB s = .next (s.void (.stall .mem))) ∧
    (s.rd.storeFault = none → x.faultAtEnd = none → (∀ p ∈ s.rd.prods, ¬ fails p) → s.mycore.settled s.j = true →
      s.issue.slots = [] → s.issue.ctl = .none → s.issue.tst = none → s.issue.mark = false →
      s.mycore.busy s.j = true ∨ s.recordMoving s.cur s.j = true →
      exec .endB s = .next (({ s with issue := { s.issue with ctl := .none } } : State).updMe fun y =>
        { y with pend := .endItem s.issue.addr })) ∧
    (s.rd.storeFault = none → s.mycore.settled s.j = false →
      (x.faultAtEnd = none → (∀ p ∈ s.rd.prods, ¬ fails p) → raises .endB 0x05 0) ∧
      (x.level = 0 → x.uih = false → raises .suspend 0x05 0))

/-- R383, R387: a supervisor trap with a handler and room for its frame: supervisor level, issue at TVEC.ADDR × 256, the
cause, the return address and the frame's address in TCAUSE, TRAPPC and TFBASE, no prepared fetch; the frame holds the
cause, the return address, CSTAT and the registers of the code interrupted; device memory does not change. -/
def Obligations.TrapEntry : Prop :=
  ∀ (s : State) (n j ret : Nat) (r : Raise),
    let c := s.core n
    let x := s.ctx n j
    let at_ := frameAt j x.depth
    at_ + 0x800 ≤ c.b0 * 8192 → c.tvec.toNat / 256 ≠ 0 → r.cause ≠ 0x20 → r.cause ≠ 0x21 → r.cause < 256 → r.code < 65536 →
    ret < 2 ^ 64 →
    let t := s.takeTrap n j r ret
    let y := t.ctx n j
    let frame := fun (o k : Nat) => (t.core n).pool.num (at_ + o) k
    y.level = 1 ∧ y.pc = c.tvec.toNat / 256 * 256 ∧ y.tcause = BitVec.ofNat 64 (r.code * 2 ^ 48 + r.cause) ∧
    y.tinfo = BitVec.ofNat 64 r.tinfo ∧ y.trappc = BitVec.ofNat 64 (ret / 4 * 4) ∧ y.prep = [] ∧ y.depth = x.depth + 1 ∧
    y.tfbase = BitVec.ofNat 64 (bits c.lwbase 51 21 * 2 ^ 21 + 2 ^ 21 + at_) ∧ y.uih = x.uih ∧ t.mem = s.mem ∧
    frame 0x000 8 = r.code * 2 ^ 48 + r.cause ∧ frame 0x008 8 = r.tinfo % 2 ^ 64 ∧ frame 0x010 8 = ret ∧
    frame 0x018 8 = (s.ctlWord n c j 0x000).toNat ∧
    (∀ k, 1 ≤ k → k < 64 → (k < 48 ∨ 56 ≤ k) → frame (0x040 + 8 * k) 8 = (x.s.get 0 k).toNat) ∧
    (∀ k, k < 8 → frame (0x260 + 8 * k) 8 = (x.b.get 0 k).toNat) ∧
    (∀ d, d < 4 → frame (0x2A0 + 8 * d) 8 = (x.tapS false d).toNat ∧ frame (0x2C0 + 8 * d) 8 = (x.tapS true d).toNat) ∧
    (x.depth = 0 → y.s = x.s ∧ y.p = x.p ∧ y.b = x.b ∧ y.v = x.v ∧ y.x0 = x.x0 ∧ y.x1 = x.x1 ∧ y.vstat = x.vstat ∧
      y.mctl = x.mctl)

/-- R89, R383, R390: a trap taken from user-level code and returned from with its frame untouched gives back the code's
level, its registers and their states, predicates, branch registers, rings and producers, and its S-wide results in
flight, in their order; the next bundle is the return address's. -/
def Obligations.TrapThenReturn : Prop :=
  ∀ (s : State) (n j ret : Nat) (r : Raise),
    let c := s.core n
    let x := s.ctx n j
    x.level = 0 → x.uih = false → x.depth = 0 → c.saved = [] → frameAt j 0 + 0x800 ≤ c.b0 * 8192 →
    c.tvec.toNat / 256 ≠ 0 → ret < 2 ^ 64 → x.p < 256 → x.p % 2 = 1 → x.x0.length ≤ 4 → x.x1.length ≤ 4 →
    (∀ p ∈ x.prods, p.target = 0) → (x.flights.filter fun f => f.unit.sWide).length ≤ 48 →
    (∀ f ∈ x.flights, f.home = 0 ∧ (f.unit.sWide = true →
      f.shadow = false ∧ f.beat = .none ∧ f.wide = [] ∧ f.rem < 256 ∧ f.slot < 256 ∧
      (f.unit = .btarget → ∃ k, f.dest = .b k ∧ k < 8) ∧ (f.unit ≠ .btarget →
        f.dest = .none ∨ (∃ k, f.dest = .s k ∧ 1 ≤ k ∧ k < 64) ∨ ∃ k, f.dest = .p k ∧ k < 8))) →
    let z := (s.takeTrap n j r ret).retiNow n j []
    let y := z.ctx n j
    y.level = 0 ∧ y.uih = false ∧ y.depth = 0 ∧ y.pc = ret / 4 * 4 ∧
    (∀ k, k < 48 ∨ 56 ≤ k → k < 64 → y.regS k = x.regS k ∧ y.feS k = x.feS k) ∧ (∀ k, k < 8 → y.pred k = x.pred k) ∧
    (∀ k, k < 8 → y.b.get 0 k = x.b.get 0 k) ∧ (∀ d, d < 4 → y.tapS false d = x.tapS false d ∧ y.tapS true d = x.tapS true d) ∧
    y.prods = x.prods ∧ y.v = x.v ∧
    (y.flights.filter fun f => f.unit.sWide) = (x.flights.filter fun f => f.unit.sWide) ∧
    (y.flights.filter fun f => !f.unit.sWide) = (x.flights.filter fun f => !f.unit.sWide)

/-- R286, R381, R382, R394: an interrupt that is due is taken at its context's boundary, a timer before a notice, and a
user-level one only after both, where its context is the current one; a context that is not, or whose item has been killed
(R341), takes none. A user-level one
enters at UIVEC with UPEND counted down, s60-s63 reading as they did, and uret goes back to the next bundle with the
originals and the rings. -/
def Obligations.Interrupts : Prop :=
  ∀ (s : State) (n j ret : Nat),
    let x := s.ctx n j
    ((s.core n).unitBusy j = false → (s.core n).midPlay j = false → x.held.isSome = true → x.pend = .none → x.killed = false → x.uih = false →
      ((s.core n).cur ≠ j → exec (.supervisorTrapEntry n j) s = .next s) ∧
      ((s.core n).cur = j → x.level = 0 → x.timer = true → exec (.supervisorTrapEntry n j) s =
        .next (((s.dropBundle n j).updCtx n j fun y => { y with timer := false }).takeTrap n j
          ⟨0x40, 0, 0, none, none, false⟩ x.pc)) ∧
      ((s.core n).cur = j → x.level = 0 → x.timer = false → x.notice = true → exec (.supervisorTrapEntry n j) s =
        .next (((s.dropBundle n j).updCtx n j fun y => { y with notice := false }).takeTrap n j
          ⟨0x41, 0, 0, none, none, false⟩ x.pc)) ∧
      (x.level = 0 → x.upend ≠ 0 → bit x.uivec 0 = true →
        (x.timer = false → x.notice = false → (s.core n).cur = j →
          exec (.userInterruptEntry n j) s = .next ((s.dropBundle n j).takeUser n j x.pc)) ∧
        (x.timer = true ∨ x.notice = true ∨ (s.core n).cur ≠ j → exec (.userInterruptEntry n j) s = .next s))) ∧
    (x.killed = true → exec (.supervisorTrapEntry n j) s = .next s ∧ exec (.userInterruptEntry n j) s = .next s) ∧
    (x.depth = 0 → x.uih = false → ret < 2 ^ 64 → x.x0.length ≤ 4 → x.x1.length ≤ 4 →
      let t := s.takeUser n j ret
      let y := t.ctx n j
      let z := (t.uretNow n j []).ctx n j
      y.uih = true ∧ y.level = x.level ∧ y.pc = x.uivec.toNat / 4 * 4 ∧ y.upend = x.upend - 1 ∧
      y.uipc = BitVec.ofNat 64 (ret / 4 * 4) ∧ t.mem = s.mem ∧ (∀ k, k < 64 → y.regS k = x.regS k ∧ y.feS k = x.feS k) ∧
      z.uih = false ∧ z.pc = ret / 4 * 4 ∧ z.depth = 0 ∧ (∀ k, z.regS k = x.regS k) ∧
      ∀ d, d < 4 → z.tapS false d = x.tapS false d ∧ z.tapS true d = x.tapS true d)

/-- R4, R66, R91, R209-R219: crd lands the register as it stood before the bundle in 1 tick; cwr writes the writable bits
of the register, nothing for a read-only one, and leaves every other register, the counters among them. A register of the supervisor, reti,
arrsave, arrrest and tlbinv raise the privilege fault 0x02 at user level. -/
def Obligations.ControlRegisters : Prop :=
  ∀ (s : State) (d : BitVec 6) (a : SSrc) (r : BitVec 12) (v : Word) (k : TlbKind), s.readS a = .ok v →
    let reg := fun (t : State) (q : Nat) => t.ctlWord t.cur t.mycore t.j q
    let super := r.toNat ∈ [0x014, 0x028, 0x029, 0x040, 0x041, 0x042, 0x043, 0x044] ∨ 0x120 ≤ r.toNat
    let raises := fun (m : Instr) (tinfo : Nat) => exec m s = .next (s.void (.trap ⟨0x02, 0, tinfo, none, none, false⟩))
    (s.rd.level ≠ 1 → raises .reti 0x02 ∧ raises .arrsave 0x06 ∧ raises .arrrest 0x07 ∧ raises (.tlbinv a k) 0x09 ∧
      (super → raises (.crd d r) r.toNat ∧ raises (.cwr a r) r.toNat)) ∧
    ((super → s.rd.level = 1) → exec (.crd d r) s =
      .next (s.landS .crd (sdst d) (s.ctlWord s.cur (s.issue.before.getD s.mycore) s.j r.toNat) 1)) ∧
    ((super → s.rd.level = 1) → ∃ t, exec (.cwr a r) s = .next t ∧
      (∀ q, q ≠ r.toNat → reg t q = reg s q) ∧
      (∀ m ∈ [(0x001, 0x3), (0x002, 0x1F), (0x003, 0x1F), (0x014, 0x000FFFFFFFE00001), (0x024, 0xFFFFFFFFFFFFFFFD),
        (0x025, 0xFFFFFFFFFFFFFFFC), (0x028, 0xFFFFFF), (0x029, 0xFFFFFFFF), (0x030, 0x31F), (0x031, 0xFFFFFFFF),
        (0x040, 0xFFFFFFFFFFFFFF00), (0x043, 0xFFFFFFFFFFFFFFFC), (0x053, 0xFFFFFFFF)],
        r.toNat = m.1 → reg t m.1 = v &&& BitVec.ofNat 64 m.2) ∧
      (r.toNat = 0x000 → t.me.ev = v.getLsbD 0) ∧
      (r.toNat = 0x008 ∨ r.toNat = 0x051 → reg t r.toNat = reg s r.toNat &&& ~~~(v &&& 0xC000000000000000)) ∧
      (r.toNat ∈ [0x004, 0x009, 0x00A, 0x00B, 0x010, 0x011, 0x012, 0x015, 0x018, 0x019, 0x01A, 0x01B, 0x020, 0x041, 0x042,
        0x044, 0x050, 0x052] → t = s) ∧
      (0x100 ≤ r.toNat → r.toNat < 0x140 → s.issue.before = none → reg t r.toNat = v))

/-- R92, R93, R228, R317: arrsave by a handler writes the array's state to the save area and takes the array, which
nothing else changes; it only takes it where nobody owned it, and does nothing where the handler has it already. arrrest
in the handler that saved gives the array back, its state read from the save area, and does nothing elsewhere. A saved
state comes back as it was. In the model a save leaves the array's own state in place and closes the play, and one of another
context's handler stays beneath (log 47); its 431 cycles pass in one move (log 48), and the segments decoded ahead are
decoded again (log 15). setpool answers with the first status that holds, in the table's order, or starts the
conversion, which ends with every unit that changes region zero, the boundaries changed and, where the rings change,
their registers and DPROG zero. -/
def Obligations.ArrayAndPool : Prop :=
  ∀ (s : State) (a : SSrc) (d : BitVec 6) (x : Word) (n o : Nat) (p : Setpool) (z : ArrSaved)
    (zs : List ArrSaved),
    let c := s.mycore
    -- arrsave
    (s.rd.level = 1 →
      (c.handlerOwns s.j = true → ∃ t, exec .arrsave s = .next t ∧ t.mycore = c ∧ t.mem = s.mem) ∧
      (c.handlerOwns s.j = false →
        let saved : ArrSaved := ⟨s.j, s.me.depth, (c.play.map (·.home)).getD 0, c.owner, c.btiles.map (·.coded),
          max c.replay c.fifoSegs, c.lateTiles⟩
        (c.owner = none → ∃ t, exec .arrsave s = .next t ∧ t.mem = s.mem ∧
          t.mycore = { c with saved := saved :: c.saved, owner := some (4 * s.cur + s.j) }) ∧
        (c.owner = some o → ∃ t, exec .arrsave s = .next t ∧ t.mem = s.mem ∧ t.mycore.saved = saved :: c.saved ∧
          t.mycore.owner = some (4 * s.cur + s.j) ∧ t.mycore.play = none ∧ t.mycore.fifo = [] ∧
          t.mycore.acc0 = c.acc0 ∧ t.mycore.acc1 = c.acc1 ∧ t.mycore.active = c.active ∧ t.mycore.shadow = c.shadow ∧
          t.mycore.pool = c.pool.writeN 0 c.settleScales.arrayImage ∧ t.mycore.clock = c.clock + 431 ∧
          t.me.s = s.me.s ∧ t.me.pc = s.me.pc))) ∧
    -- arrrest
    (s.rd.level = 1 →
      (c.saved = z :: zs → z.by_ = s.j → z.depth = s.me.depth →
        (z.owner = none → ∃ t, exec .arrrest s = .next t ∧ t.mem = s.mem ∧
          t.mycore = { c with saved := zs, owner := none }) ∧
        (z.owner = some o → ∃ t, exec .arrrest s = .next t ∧ t.mem = s.mem ∧ t.mycore.saved = zs ∧
          t.mycore.owner = some o ∧ t.mycore.pool = c.pool ∧ t.mycore.clock = c.clock + 431 ∧
          ∀ b q, q < 128 → (t.mycore.acc b).get zeroRow q = tab 128 fun i =>
            BitVec.ofNat 32 (c.pool.num ((if b then 0x10000 else 0) + 512 * q + 4 * i) 4))) ∧
      (c.saved = [] ∨ (c.saved = z :: zs ∧ (z.by_ ≠ s.j ∨ z.depth ≠ s.me.depth)) →
        ∃ t, exec .arrrest s = .next t ∧ t.mycore = c ∧ t.mem = s.mem)) ∧
    -- arrsave, then arrrest
    (s.rd.level = 1 → c.handlerOwns s.j = false → c.owner = some o →
      (∀ b q, q < 128 → ((c.acc b).get zeroRow q).length = 128) → ∃ t u, exec .arrsave s = .next t ∧ exec .arrrest t = .next u ∧
        u.mycore.owner = some o ∧ ∀ b q, q < 128 → (u.mycore.acc b).get zeroRow q = (c.acc b).get zeroRow q) ∧
    -- setpool
    (s.readS a = .ok x →
      let b0 := x.toNat % 256
      let b1 := x.toNat / 2 ^ 8 % 256
      let b2 := x.toNat / 2 ^ 16 % 256
      let st := if 2 ^ 24 ≤ x.toNat ∨ ¬ (b0 ≤ b1 ∧ b1 ≤ b2 ∧ b2 ≤ 192) then 1
        else if b0 ≠ c.b0 ∧ s.me.level = 0 then 2
        else if b0 < 32 then 3
        else if 192 - b2 < 8 then 4
        else if b2 ≠ c.b2 ∧ (c.ahd ≠ c.atl ∨ c.bhd ≠ c.btl ∨ c.atiles ≠ [] ∨ c.btiles ≠ [] ∨ c.fifoSegs ≠ 0) then 5
        else if c.setpool.isSome then 6 else 0
      ∃ t, exec (.setpool a d) s = .next t ∧
        (st ≠ 0 → t.me.holds d.toNat (BitVec.ofNat 64 st) ∧ t.mycore.setpool = c.setpool) ∧
        (st = 0 → t.mycore.setpool = some ⟨s.j, b0, b1, b2⟩ ∧ (d ≠ 0 → t.me.feS d.toNat = .empty))) ∧
    -- setpoolConversion
    ((s.core n).setpool = some p →
      (s.engineWrites n = false ∨ (p.b0 = (s.core n).b0 ∧ ∀ k, k < 192 →
        regionOf (s.core n).b0 (s.core n).b1 (s.core n).b2 k = 1 → regionOf p.b0 p.b1 p.b2 k = 1)) →
      (∀ q ∈ (s.ctx n p.ctx).prods, q.target = 0) →
      ∃ t, exec (.setpoolConversion n) s = .next t ∧
        let c := t.core n
        c.b0 = p.b0 ∧ c.b1 = p.b1 ∧ c.b2 = p.b2 ∧ c.setpool = none ∧
        (p.b2 ≠ (s.core n).b2 → c.ahd = 0 ∧ c.atl = 0 ∧ c.bhd = 0 ∧ c.btl = 0 ∧ ∀ j, (c.ctx j).dprog = 0) ∧
        ∀ k, k < 192 * 8192 → c.pool.read k =
          if regionOf (s.core n).b0 (s.core n).b1 (s.core n).b2 (k / 8192) = regionOf p.b0 p.b1 p.b2 (k / 8192)
          then (s.core n).pool.read k else 0)

/-- R94-R96: tlbinv drops from every TLB and walker exactly the entries it names; cwb leaves no written byte in what it
covers, the caches of L1, a line or a page, and cinv no line there; neither does anything for an address without
translation, and one whose page migrates waits (R268). wfe takes the event flag, or waits. -/
def Obligations.TranslationsAndCaches : Prop :=
  ∀ (s : State) (a : SSrc) (x : Word) (k : TlbKind) (tr : Trans) (c : CacheKind), s.readS a = .ok x →
    let named := fun (e : TlbEntry) => match k with
      | .all => true
      | .page => decide (e.vdev = s.vdevOf s.cur ∧ e.va ≤ x.toNat ∧ x.toNat < e.va + e.size)
      | .vdev => decide (e.vdev = x.toNat % 64)
    (s.rd.level = 1 → ∃ t, exec (.tlbinv a k) s = .next t ∧ ∀ n e,
      (e ∈ (t.core n).utlb ↔ e ∈ (s.core n).utlb ∧ named e = false) ∧
      (e ∈ (t.cluster n).ctlb ↔ e ∈ (s.cluster n).ctlb ∧ named e = false) ∧
      (e ∈ (t.pier n).wcache ↔ e ∈ (s.pier n).wcache ∧ named e = false)) ∧
    (∃ t, exec (.cwb a .l1) s = .next t ∧ (∀ p, t.holdsWritten s.cur p = false) ∧
      (s.errorFree = true → ∀ p, s.holdsWritten s.cur p = false → t.mem.read p = s.mem.read p)) ∧
    (∃ t, exec (.cinv a .l1) s = .next t ∧ t.mycore.l1 = []) ∧
    (s.outsideWindow x.toNat 1 = true → s.lookup (s.tlbs s.cur) (s.vdevOf s.cur) x.toNat = some tr →
      let moving := s.moving (s.tlbs s.cur) (s.vdevOf s.cur) x.toNat 1
      let paged := fun (p : Nat) => tr.pa / tr.size * tr.size ≤ p ∧ p < tr.pa / tr.size * tr.size + tr.size
      (moving = true → c ≠ .l1 →
        exec (.cwb a c) s = .next (s.void (.stall .mem)) ∧ exec (.cinv a c) s = .next (s.void (.stall .mem))) ∧
      (moving = false →
      (∃ t, exec (.cwb a .line) s = .next t ∧ ∀ p, p / 512 = tr.pa / 512 → t.holdsWritten s.cur p = false) ∧
      (∃ t, exec (.cinv a .line) s = .next t ∧ ∀ l ∈ t.mycore.l1, l.pa ≠ tr.pa / 512) ∧
      (∃ t, exec (.cwb a .page) s = .next t ∧ ∀ p, paged (p / 512 * 512) → t.holdsWritten s.cur p = false) ∧
      (∃ t, exec (.cinv a .page) s = .next t ∧ ∀ l ∈ t.mycore.l1, ¬ paged (l.pa * 512)))) ∧
    (s.lookup (s.tlbs s.cur) (s.vdevOf s.cur) x.toNat = none → c ≠ .l1 → s.errorFree = true →
      ∃ t u, exec (.cwb a c) s = .next t ∧ exec (.cinv a c) s = .next u ∧ t.mem = s.mem ∧ u.mem = s.mem ∧
        t.mycore.l1 = s.mycore.l1 ∧ u.mycore.l1 = s.mycore.l1) ∧
    (s.me.ev = true → exec .wfe s = .next (s.updMe fun y => { y with ev := false })) ∧
    (s.me.ev = false → exec .wfe s = .next (s.updMe fun y => { y with waiting := true }))

/-- R39-R41, R53, R125, R268, R341-R343, R345-R347, R382: what happens to a core by itself. A bundle is fetched word by
word up to STOP and checked before any of its slots takes effect; landings that are due reach their registers, the others
stay; the decoder decodes one segment into the FIFO; the selector leaves a context that cannot issue, or whose quantum is
over, for the next ready one, in 2 cycles in which nothing issues; a cluster raises a pre-emption request for a record
that heads a list, CPREQ raises others; a heavy pre-emption and a kill are taken at a boundary; timers and notices make
their interrupts pending. In the model the launch keeps which coded tile ends in padding (log 15), and a fetch, or a record
that is written, waits on a page that migrates (log 77). -/
def Obligations.CoreEvents : Prop :=
  ∀ (s u : State) (n j k cl w i q : Nat) (ws : List Nat) (is_ : List Instr) (e : Nat × Nat) (f : Flight) (t : Tile)
    (syms : List Nat) (v : Nat × Nat) (h : Held) (tl : TlbEntry) (en : Entry) (es : List Entry) (l : Launch),
    let c := s.core n
    let x := s.ctx n j
    -- bundleFetch: words that lie in a page of the micro-TLB, free of errors
    (let y := c.ctx c.cur
     let pa := fld tl.pte.toNat 51 12 * 4096 + (y.pc - tl.va)
     let playing := c.play.any fun p => p.ctx == c.cur
     y.held.isSome = true → y.pc % 4 = 0 → bit c.lwbase 0 = false → s.migrations = [] → s.poison = [] → s.upset = [] →
      s.removed = [] → y.pc + 32 ≤ 2 ^ 52 → bit (s.vdev (s.vdevOf n)).ptbase 0 = true →
      (∀ a, y.pc ≤ a → a < y.pc + 32 → tlbFind c.utlb (s.vdevOf n) a = some tl) → tl.va ≤ y.pc →
      denied tl.pte.toNat .x (y.level == 0) = false → 1 ≤ ws.length → ws.length ≤ 8 →
      (∀ a, a < ws.length → s.mem.num (pa + 4 * a) 4 = nth 0 ws a) →
      (∀ a, a + 1 < ws.length → nth 0 ws a < 2 ^ 31) → (ws.length = 8 ∨ 2 ^ 31 ≤ nth 0 ws (ws.length - 1)) →
      (checkBundle ws playing = .ok is_ → ∃ z, exec (.bundleFetch n) s = .next z ∧ z.cur = n ∧ z.mem = s.mem ∧
        z.core n = c ∧ z.issue.addr = y.pc ∧ z.issue.next = y.pc + 4 * ws.length ∧ z.issue.slots = is_ ∧
        z.issue.void = none) ∧
      (checkBundle ws playing = .error e → ∃ z : State, z.mem = s.mem ∧ z.core n = c ∧ exec (.bundleFetch n) s =
        .next (z.void (.trap ⟨0x01, 0, e.1 + 256 * e.2, none, none, false⟩)))) ∧
    -- bundleFetch: any words that can be fetched, or the wait for a page that migrates
    (let p := { s with cur := n }
     let got := { p with issue := { Issue.none with addr := p.me.pc } }.fetchWords n (p.me.level == 0) 8 p.me.pc
     (p.me.held.isSome = true → p.me.pc % 4 = 0 → got = (u, .ok ws) →
       (checkBundle ws (c.play.any fun p => p.ctx == c.cur) = .ok is_ → exec (.bundleFetch n) s =
         .next { u with issue := { u.issue with next := p.me.pc + 4 * ws.length, slots := is_ } }) ∧
       (checkBundle ws (c.play.any fun p => p.ctx == c.cur) = .error e → exec (.bundleFetch n) s =
         .next (u.void (.trap ⟨0x01, 0, e.1 + 256 * e.2, none, none, false⟩)))) ∧
     (p.me.held.isSome = true → p.me.pc % 4 = 0 → got = (u, .error (0, w)) →
       exec (.bundleFetch n) s = .next (u.void .fetch)) ∧
     (p.me.held.isSome = false → exec (.bundleFetch n) s = .next s)) ∧
    -- fixedLatencyLanding
    (∃ y, exec (.fixedLatencyLanding n j) s = .next y ∧ y.mem = s.mem ∧
      (y.ctx n j).flights = x.flights.filter (fun f => !(f.home == x.depth && f.rem == 0)) ∧
      (x.flights.filter (fun f => f.home == x.depth && f.rem == 0) = [] → (y.ctx n j).s = x.s ∧ (y.ctx n j).fe = x.fe) ∧
      (x.flights.filter (fun f => f.home == x.depth && f.rem == 0) = [f] → f.dest = .s k → 1 ≤ k → f.shadow = x.shadowed k →
        (y.ctx n j).regS k = f.val ∧ (y.ctx n j).feS k = .full ∧ ∀ a, a ≠ k → (y.ctx n j).regS a = x.regS a)) ∧
    -- decoderSegmentDecode
    (c.decodes = some j → c.nextSeg = some (i, t) → bit x.mctl 31 = true → c.malformed = none → c.fifoSegs < 4 →
      let r := segment (c.segBytes t (i % 64)) (i % 64) (c.tileGen t)
        ((x.dt.get DTable.reset (bits x.mctl 42 40)).lensOf (c.tileGen t)) (i % 64 != 63 || t.coded != 0)
      (r = .ok syms → ∃ y, exec (.decoderSegmentDecode n) s = .next y ∧ (y.core n).fifo = c.fifo ++ syms ∧
        (y.core n).fifoSegs = c.fifoSegs + 1 ∧ (y.core n).counters.get 0 0x123 = c.counters.get 0 0x123 + 256 ∧
        (y.ctx n j).counters.get 0 0x10E = x.counters.get 0 0x10E + (if c.fifoSegs < c.replay then 1 else 0) ∧
        y.mem = s.mem) ∧
      (r = .error e → ∃ y, exec (.decoderSegmentDecode n) s = .next y ∧ (y.core n).malformed = some ⟨i, e.1, e.2⟩ ∧
        (y.core n).fifo = c.fifo ∧ y.mem = s.mem)) ∧
    (c.decodes = none ∨ c.nextSeg = none ∨ 4 ≤ c.fifoSegs ∨ c.malformed ≠ none →
      ∃ y, exec (.decoderSegmentDecode n) s = .next y ∧ y.core n = c ∧ y.mem = s.mem) ∧
    -- switchOnStall, switchQuantumExpiry
    (1 ≤ k → k ≤ 3 → (c.ctx ((c.cur + k) % 4)).ready = true → (∀ d, 1 ≤ d → d < k → (c.ctx ((c.cur + d) % 4)).ready = false) →
      let switched := fun (y : State) => (y.core n).cur = (c.cur + k) % 4 ∧ (y.core n).run = 0 ∧ y.mem = s.mem ∧
        (y.core n).clock = c.clock + 2 ∧ (y.core n).counters.get 0 0x121 = c.counters.get 0 0x121 + 2 ∧
        ∀ b a, (y.ctx n b).regS a = (s.ctx n b).regS a ∧ (y.ctx n b).feS a = (s.ctx n b).feS a ∧
          (y.ctx n b).flights = (s.ctx n b).flights ∧ (y.ctx n b).prep = (s.ctx n b).prep
      ((c.ctx c.cur).ready = false → ∃ y, exec (.switchOnStall n) s = .next y ∧ switched y) ∧
      ((c.ctx c.cur).ready = true → exec (.switchOnStall n) s = .next s) ∧
      (1024 ≤ c.run → ∃ y, exec (.switchQuantumExpiry n) s = .next y ∧ switched y) ∧
      (c.run < 1024 → exec (.switchQuantumExpiry n) s = .next s)) ∧
    ((∀ d, 1 ≤ d → d ≤ 3 → (c.ctx ((c.cur + d) % 4)).ready = false) →
      exec (.switchOnStall n) s = .next s ∧ exec (.switchQuantumExpiry n) s = .next s) ∧
    -- preemptionRequest
    ((∃ d ∈ clusterCtxs cl, (s.ctx d.1 d.2).asked = true) → exec (.preemptionRequest cl) s = .next s) ∧
    ((∀ d ∈ clusterCtxs cl, (s.ctx d.1 d.2).asked = false) → 1 ≤ q → q < 8 → (s.cluster cl).lists.get [] q = en :: es →
      (∀ a, q < a → a < 8 → (s.cluster cl).lists.get [] a = []) → v ∈ clusterCtxs cl →
      s.permits (s.cluster cl).vdev v.1 en = true → (s.ctx v.1 v.2).held = some h → h.prio < q →
      (∀ d ∈ clusterCtxs cl, s.permits (s.cluster cl).vdev d.1 en = true → ∃ g, (s.ctx d.1 d.2).held = some g ∧
        (h.prio < g.prio ∨ (h.prio = g.prio ∧ (v.1 < d.1 ∨ (v.1 = d.1 ∧ v.2 ≤ d.2))))) →
      exec (.preemptionRequest cl) s = .next (s.updCtx v.1 v.2 fun x => { x with
        preq := true, preqTicks := if x.preq then x.preqTicks else 0, ev := true, asked := true })) ∧
    -- cpreqWrite
    (cl < 64 → ∃ y, exec (.cpreqWrite cl w) s = .next y ∧ y.mem = s.mem ∧ ∀ m, m < 32 →
      let z := s.ctx (8 * cl + m / 4) (m % 4)
      y.ctx (8 * cl + m / 4) (m % 4) = if w / 2 ^ m % 2 = 1 ∧ z.held.isSome = true then
        { z with preq := true, preqTicks := if z.preq then z.preqTicks else 0, ev := true } else z) ∧
    -- heavyPreemption
    (x.held.isSome = true → x.pend = .none → x.killed = false → x.preq = true → x.level = 0 → x.uih = false → c.pbound ≤ x.preqTicks →
      c.midPlay j = false →
      (c.busy j = false → s.recordMoving n j = false → ∃ y, exec (.heavyPreemption n j) s = .next y ∧
        y = (((s.dropBundle n j).updCtx n j fun x => { x with pend := .none }).updCtx n j
          fun x => x.count 0x10C 1).leaveAt n j x.pc .heavy ∧
        (y.ctx n j).held = none ∧ (y.ctx n j).flights = [] ∧ (y.ctx n j).preq = false) ∧
      (c.busy j = true ∨ s.recordMoving n j = true → ∃ y, exec (.heavyPreemption n j) s = .next y ∧
        (y.ctx n j).pend = .heavy ∧ (y.ctx n j).held = x.held ∧ y.mem = s.mem)) ∧
    (x.preq = false ∨ x.killed = true ∨ x.level = 1 ∨ x.uih = true ∨ x.preqTicks < c.pbound ∨ c.midPlay j = true →
      exec (.heavyPreemption n j) s = .next s) ∧
    -- itemKill
    (x.killed = false ∨ x.held = none ∨ (∃ a, x.pend = .endItem a) → exec (.itemKill n j) s = .next s) ∧
    (x.killed = true → x.held = some h → (∀ a, x.pend ≠ .endItem a) → x.pend ≠ .heavy →
      (c.busy j = true → ∃ y, exec (.itemKill n j) s = .next y ∧ (y.ctx n j).flights = [] ∧ (y.ctx n j).pend = .none ∧
        (y.ctx n j).held = some h ∧ y.mem = s.mem) ∧
      (c.busy j = false → ∃ y, exec (.itemKill n j) s = .next y ∧ (y.ctx n j).held = none ∧ (y.ctx n j).flights = [] ∧
        (s.launch h.launch = none → y.mem = s.mem) ∧
        (s.launch h.launch = some l → ∃ m, y.launch h.launch = some m ∧
          m.live = l.live.filter (fun a => a.slot != l.slotOf h.addr)))) ∧
    -- timerExpiry, noticeWrite
    (k < 32 →
      let tm := (s.cluster cl).timers.get 0 k
      let due := bit tm 63 = true ∧ tm.toNat % 2 ^ 63 ≤ ((s.core (8 * cl + k / 4)).counters.get 0 0x120).toNat
      (due → ∃ y, exec (.timerExpiry cl k) s = .next y ∧ (y.ctx (8 * cl + k / 4) (k % 4)).timer = true ∧
        (y.ctx (8 * cl + k / 4) (k % 4)).ev = true ∧ (y.cluster cl).timers.get 0 k = (tm &&& 0x7FFFFFFFFFFFFFFF) ∧
        y.mem = s.mem) ∧
      (¬ due → exec (.timerExpiry cl k) s = .next s)) ∧
    (cl < 64 → ∃ y, exec (.noticeWrite cl w) s = .next y ∧ y.mem = s.mem ∧ ∀ m, m < 32 →
      let z := s.ctx (8 * cl + m / 4) (m % 4)
      y.ctx (8 * cl + m / 4) (m % 4) = if w / 2 ^ m % 2 = 1 then { z with notice := true, ev := true } else z)

/-- R275, R278-R282, R318, R325, R328, R330, R334, R340, R341: what the launch scheduler and the clusters do. The scheduler
takes the next launch of the queue whose turn it is, and creates its records in order, a retry first; a cluster's idle
contexts take records of its lists, or of another cluster's after 64 idle cycles; a record that has waited AGE_TICKS moves
up one list; identifiers of dispensers go to clusters in batches of up to 8, come back, and exhaustion is broadcast. The
order of the turns, and the count of idle cycles, one for each cluster, which stops at 64, are the model's (logs 87, 12 and
112), and so are the die that logs an invalid header of a launch queue (log 4), the bits of a slot's STATUS that are not
looked at (log 115), the cluster of a retry (log 31), the wait of a launch whose clusters have left its device (log 116) and
the waits on a page that migrates (log 77). -/
def Obligations.WorkEvents : Prop :=
  ∀ (s u : State) (v q n cl k d p g : Nat) (bs img hd : List Byte) (qh : QHdr) (l : Launch) (i : Item)
    (is_ : List Item) (c : Nat × Nat) (r : Nat × Entry) (r2 : Nat × Nat × Entry) (e : Entry),
    -- launchTake
    (let w := (s.vdev v).lqtab.get 0 q
     (16 ≤ q ∨ tabOn w = false → exec (.launchTake v q) s = .next s) ∧
     (q < 16 → tabOn w = true → s.migrations = [] → s.devRead v (tabVa w) 64 false = (u, .ok bs) →
      let ready := u.vdevs.flatMap fun d => (List.range 16).filterMap fun a =>
        if (u.readyLaunch d.1 a).isSome then some (d.1, a) else none
      let turn := nextTurn (u.lastServed 16) ready
      (qHdr bs true = none → exec (.launchTake v q) s = .next (u.errorLog 0 3 (tabVa w))) ∧
      (qHdr bs true = some qh → u.readyLaunch v q = none ∨ turn ≠ some (v, q) → exec (.launchTake v q) s = .next u) ∧
      (qHdr bs true = some qh → u.readyLaunch v q = some (p, n, img) → turn = some (v, q) →
        exec (.launchTake v q) s = .next (({ (u.devRead v p 64 false).1 with
          turns := (u.devRead v p 64 false).1.turns.set 16 (v, q) }.setTi v (tabVa w) true (n + 1)).launchStart
            v q (tabVa w) p img))) ∧
     (q < 16 → tabOn w = true → (s.devRead v (tabVa w) 64 false).2 = .ok bs → qHdr bs true = some qh →
      let m := max (s.ti v (tabVa w) true) qh.ri
      let active := (s.launches.filter fun x => x.2.vdev == v && x.2.queue == q && !x.2.ended).length
      (qh.wi ≤ m ∨ 16 ≤ active → s.readyLaunch v q = none) ∧
      (m < qh.wi → active < 16 → (s.devRead v (qh.slot m) 64 false).2 = .ok img →
        s.readyLaunch v q = if numAt img 2 2 ≠ qh.seq m ∨ (pkOrdered img = true ∧ active ≠ 0) then none
          else some (qh.slot m, m, img)))) ∧
    (launchSlotOk img = false → s.launchStart v q k p img = s.launchFail v k p (numAt img 8 8) 1) ∧
    (launchSlotOk img = true → s.devRead v (numAt img 8 8) 512 false = (u, .ok hd) → launchHdrOk hd = true →
      fld (numAt hd 32 8) 15 8 ≠ 0 → u.permitted v (numAt hd 32 8) ≠ [] →
      ∃ m, s.launch m = none ∧ (s.launchStart v q k p img).launch m = some (launchOf v q k p img hd)) ∧
    -- recordCreate
    (s.launch k = none → exec (.recordCreate k) s = .next s) ∧
    (s.launch k = some l → s.nextCluster l = none → exec (.recordCreate k) s = .next s) ∧
    (s.launch k = some l → s.nextCluster l = some cl →
      (l.retries = i :: is_ →
        let y := s.updLaunch k fun l => { l with retries := is_ }
        (l.dead i.wid = true → exec (.recordCreate k) s = .next (y.launchCheck k)) ∧
        (l.dead i.wid = false → s.migrations = [] → exec (.recordCreate k) s = .next (y.placeRecord k l i cl))) ∧
      (l.retries = [] → l.ended = false → l.killedAll = false → l.next < l.items →
        let y := s.updLaunch k fun l => { l with next := l.next + 1 }
        (l.dead (l.widOf l.next) = true → exec (.recordCreate k) s = .next (y.launchCheck k)) ∧
        (l.dead (l.widOf l.next) = false → l.freeSlot = some d → s.migrations = [] →
          exec (.recordCreate k) s = .next (y.placeRecord k l ⟨d, l.widOf l.next, 0⟩ cl) ∧ d < l.nrec ∧
          ∀ a ∈ l.live, a.slot ≠ d) ∧
        (l.dead (l.widOf l.next) = false → l.freeSlot = none → exec (.recordCreate k) s = .next s)) ∧
      (l.retries = [] → l.ended = true ∨ l.killedAll = true ∨ l.items ≤ l.next → exec (.recordCreate k) s = .next s)) ∧
    -- recordPickup, recordSteal
    ((s.idleCtxs cl).findSome? (fun c => (s.choose cl c.1).map fun r => (c, r)) = some (c, r) →
      (s.entryMoving r.2 = false → exec (.recordPickup cl) s = .next (s.takeRecord cl c.1 c.2 r)) ∧
      (s.entryMoving r.2 = true → exec (.recordPickup cl) s = .next s)) ∧
    ((∀ c ∈ s.idleCtxs cl, s.choose cl c.1 = none) → ∃ y, exec (.recordPickup cl) s = .next y ∧
      y = (s.updCluster cl fun z => { z with idle := (y.cluster cl).idle }) ∧
      (y.cluster cl).idle = if s.idleCtxs cl = [] then 0 else min 64 ((s.cluster cl).idle + 1)) ∧
    (let found := fun (n : Nat) => (stealOrder cl).findSome? fun c =>
       if (s.cluster c).vdev != (s.cluster cl).vdev then none else (s.choose c n).map fun r => (c, r)
     ((s.cluster cl).idle < 64 → exec (.recordSteal cl) s = .next s) ∧
     (64 ≤ (s.cluster cl).idle → (s.idleCtxs cl).findSome? (fun c => (found c.1).map fun r => (c, r)) = some (c, r2) →
       (s.entryMoving r2.2.2 = false → exec (.recordSteal cl) s = .next (s.takeRecord r2.1 c.1 c.2 r2.2)) ∧
       r2.1 ∈ stealOrder cl)) ∧
    -- recordAging
    (p < 7 → (s.cluster cl).lists.get [] p = [e] → (∀ a, a ≠ p → (s.cluster cl).lists.get [] a = []) →
      ((s.cluster cl).ageTicks ≤ s.time - e.since →
        (s.recWrite (s.cluster cl).vdev (e.addr + 56) (toBytes 8 0) 0xFFF).2 = .ok () → s.entryDead e = false →
        ∃ y, exec (.recordAging cl) s = .next y ∧ (y.cluster cl).lists.get [] p = [] ∧
          (y.cluster cl).lists.get [] (p + 1) = [{ e with since := s.time }]) ∧
      (s.time - e.since < (s.cluster cl).ageTicks → exec (.recordAging cl) s = .next s)) ∧
    -- dispensers
    (s.launch k = some l → d < l.disps.length →
      let b := (s.cluster cl).batch k d
      (b.ids.length ≤ 4 → s.runsLaunch cl k = true → ∃ y, exec (.dispenserBatchRequest cl k d) s = .next y ∧
        ((y.cluster cl).batch k d).ids = b.ids ++ ((l.disp d).batch 8).1) ∧
      (4 < b.ids.length ∨ s.runsLaunch cl k = false → exec (.dispenserBatchRequest cl k d) s = .next s) ∧
      (s.runsLaunch cl k = true → exec (.dispenserBatchReturn cl k) s = .next s) ∧
      (s.runsLaunch cl k = false → ∃ y, exec (.dispenserBatchReturn cl k) s = .next y ∧
        ((y.cluster cl).batch k d).ids = []) ∧
      ((l.disp d).count ≤ (l.disp d).next → (l.disp d).ret = [] → (∀ a, a < 64 → ((s.cluster a).batch k d).ids = []) →
        ∃ y, exec (.dispenserExhaustion k d) s = .next y ∧ ∀ a, a < 64 → ((y.cluster a).batch k d).done = true) ∧
      ((l.disp d).next < (l.disp d).count ∨ (l.disp d).ret ≠ [] ∨ (∃ a, a < 64 ∧ ((s.cluster a).batch k d).ids ≠ []) →
        exec (.dispenserExhaustion k d) s = .next s)) ∧
    (n ≤ 8 → d + n ≤ g → ((⟨p, g, d, []⟩ : Disp).batch n).1 = (List.range n).map fun a => (p + d + a) % 2 ^ 64) ∧
    ((List.replicate 8 p ++ [q] : List Nat) = ((⟨k, d, d, List.replicate 8 p ++ [q]⟩ : Disp).batch 8).1 ++
      ((⟨k, d, d, List.replicate 8 p ++ [q]⟩ : Disp).batch 8).2.ret)

/-- R176-R182, R240, R241, R275, R312-R315: what the copy engines, the transform units and the collectives do. An engine
takes the next slot of the queue whose turn it is (the order of the turns is the model's, log 87), if its SEQ matches; a
served packet ends with its kind's effect and is served no more: a copy's destination holds its source's bytes, a gather's
rows and a scatter's elements those of the tensor and of the rows, the pad value outside the extents, all moved in one move
(log 26), the padding of planes written zero (R24); a packet whose device no longer holds its endpoints, or whose local ranges
no longer fit, fails with CODE 1 at its slot's address (logs 28, 110), and a copy whose device memory has gone since its take
with CODE 6 (R256). A compressed block expands to the block it was made from; planes go to parties that are announced, on
this package or, over Causeway, on another (log 33), a party whose packet failed as it was taken not among them (R312), and
cancels, truncations and error notices reach the party they are for, the last two unless its counter or its barrier lies in
a unit in transition (R230). -/
def Obligations.EngineEvents : Prop :=
  ∀ (s u : State) (v q k n raw blk : Nat) (bs img out : List Byte) (qh q2 : QHdr) (p : Packet) (g b : Party) (j : Job)
    (m : PlaneMsg) (h : Handle),
    -- packetTake
    (let w := (s.vdev v).cqtab.get 0 q
     (64 ≤ q ∨ tabOn w = false → exec (.packetTake v q) s = .next s) ∧
     (q < 64 → tabOn w = true → s.migrations = [] → s.devRead v (tabVa w) 64 false = (u, .ok bs) →
      let turn := nextTurn (u.lastServed qh.eng) (u.readyQueues qh.eng)
      let pk := u.packetAt v q (tabVa w) (qh.slot n) qh.eng n img
      let t := (u.devRead v (qh.slot n) 64 false).1
      (qHdr bs false = none → exec (.packetTake v q) s =
        .next (u.errorLog (numAt bs 25 1 / 4 % 4) 3 (tabVa w))) ∧
      (qHdr bs false = some qh → u.readySlot v q = none ∨ turn ≠ some (v, q) →
        exec (.packetTake v q) s = .next u) ∧
      (qHdr bs false = some qh → u.readySlot v q = some (q2, n, img) → u.movingCores (u.pkBar pk.1) ≠ [] →
        exec (.packetTake v q) s = .next u) ∧
      (qHdr bs false = some qh → u.readySlot v q = some (q2, n, img) → u.movingCores (u.pkBar pk.1) = [] → turn = some (v, q) →
        exec (.packetTake v q) s = .next (({ t with turns := t.turns.set qh.eng (v, q) }.setTi v (tabVa w) false
          (n + 1)).takeSlot pk.1 pk.2.1 pk.2.2))) ∧
     (q < 64 → tabOn w = true → (s.devRead v (tabVa w) 64 false).2 = .ok bs → qHdr bs false = some qh →
      let a := max (s.ti v (tabVa w) false) qh.ri
      let busy := (s.packets.filter fun p => p.eng == qh.eng).length
      let held := pkOrdered img && s.packets.any fun p => p.vdev == v && p.queue == q
      (qh.wi ≤ a ∨ 8 ≤ busy → s.readySlot v q = none) ∧
      (a < qh.wi → busy < 8 → (s.devRead v (qh.slot a) 64 false).2 = .ok img →
        s.readySlot v q = if numAt img 2 2 ≠ qh.seq a ∨ held = true then none else some (qh, a, img)))) ∧
    -- packetCompletion, transformCompletion
    (s.packets[k]? = some p → s.pkWaits p = false → s.migrations = [] →
      (s.pkHome p = false → exec (.packetCompletion k) s = .next (s.packetEnd p 1 p.slot)) ∧
      (s.pkHome p = true →
        (pkKind p.image = 1 → exec (.packetCompletion k) s = .next (s.copyPacket p) ∧
          ∀ y ∈ (s.copyPacket p).packets, ¬ (y.vdev = p.vdev ∧ y.slot = p.slot)) ∧
        (pkKind p.image = 2 ∨ pkKind p.image = 3 → exec (.packetCompletion k) s = .next (s.gatherPacket p)) ∧
        (pkKind p.image = 4 → exec (.packetCompletion k) s = .next (s.collPacket p)) ∧
        (pkKind p.image = 5 → s.trRuns p = true → exec (.transformCompletion k) s =
          .next ((s.trBlocks p (trN p.image) 0).1.packetEnd p (if (s.trBlocks p (trN p.image) 0).2 then 7 else 0) 0)))) ∧
    (s.packets[k]? = some p → s.pkWaits p = true → exec (.packetCompletion k) s = .next s ∧
      exec (.transformCompletion k) s = .next s) ∧
    -- the bytes of a copy
    (let r := s.cpRead p
     let w := r.1.cpWrite p r.2.1
     (r.2.2 = none → w.2 = none → s.copyPacket p = w.1.packetEnd p 0 0) ∧
     (r.2.2 = none → w.2 = some n → s.copyPacket p = w.1.packetEnd p 6 n) ∧
     (r.2.2 = some n → s.copyPacket p = w.1.packetEnd p 6 n)) ∧
    (p.src = none →
      s.cpRead p = (s, (s.localRead (p.local_ (cpWord p.image false)) p.exp).map some, none)) ∧
    (p.dst = none → s.cpWrite p (bs.map some) = (s.localWrite (p.local_ (cpWord p.image true)) bs, none)) ∧
    (s.intact = true → p.src = some h →
      let cs := cpCoords p.image false
      (h.kind ≠ 2 → s.reaches p.access .r (h.spots cs) = true →
        (s.cpRead p).2 = ((s.spotBytes p.access h cs).map some, none) ∧ (s.cpRead p).1.mem = s.mem) ∧
      (h.kind = 2 → s.reaches p.access .r (h.planeSpots cs) = true →
        (s.cpRead p).2 = (cs.map fun c => some (s.planeByte p.access h c), none) ∧ (s.cpRead p).1.mem = s.mem)) ∧
    (s.intact = true → p.dst = some h →
      let cs := cpCoords p.image true
      (h.kind ≠ 2 → bs.length = (h.spots cs).length → s.reaches p.access .w (h.spots cs) = true →
        (s.cpWrite p (bs.map some)).2 = none ∧ ∀ a, (s.cpWrite p (bs.map some)).1.mem.read a =
          (lastWrite (spotWrites p.access h cs bs) a).getD (s.mem.read a)) ∧
      (h.kind = 2 → bs.length = cs.length → s.reaches p.access .w (h.planeSpotsPadded cs) = true →
        (∀ x ∈ h.planeSpotsPadded cs, ∀ y ∈ h.planeSpotsPadded cs,
          x.bind (physOf p.access) = y.bind (physOf p.access) → x = y) →
        (s.cpWrite p (bs.map some)).2 = none ∧
        ∀ a i, i < 8 → ((s.cpWrite p (bs.map some)).1.mem.read a).getLsbD i =
          (lastWrite (planeWrites p.access h cs bs) (a, i)).getD ((s.mem.read a).getLsbD i))) ∧
    -- the rows of a gather or scatter packet
    (s.intact = true → p.src = some h →
      let d := gDesc p.image
      let lanes := activeLanes p.idx
      let at_ := fun (n : Nat) => nth 0 p.idx (nth 0 lanes n)
      let rs := h.rs (gBase d) (gLen d)
      let row := fun (n : Nat) => (p.local_ (numAt p.image 32 8)).plus (n * rs)
      let cs := fun (n : Nat) => h.rowCoords (gBase d) (gLen d) (gDim d) (at_ n)
      let inside := fun (n : Nat) => at_ n < h.e (gDim d)
      let z := s.gPacketRows p h (p.local_ (numAt p.image 32 8)) lanes 0
      let fill := tab rs fun i => nth 0 (toBytes h.esz h.pad) (i % h.esz)
      (s.gatherPacket p = (match z.1.pkTb p.me p.vdev p.image with
        | some l => z.1.localWrite (l.plus 16) (toBytes 16 z.2)
        | none => z.1).packetEnd p 0 0) ∧
      (pkKind p.image = 2 → (∀ n, n < lanes.length → inside n → s.reaches p.access .r (h.spots (cs n)) = true) →
        z.1.mem = s.mem ∧ z.2 = laneBits (lanes.filter fun i => decide (h.e (gDim d) ≤ nth 0 p.idx i)) ∧
        ∀ n, n < lanes.length →
          (inside n → z.1.localRead (row n) rs =
            s.spotBytes p.access h (cs n) ++ fill.drop (s.spotBytes p.access h (cs n)).length) ∧
          (¬ inside n → z.1.localRead (row n) rs = fill)) ∧
      (pkKind p.image = 3 → (∀ n, n < lanes.length → inside n → s.reaches p.access .w (h.spots (cs n)) = true) →
        z.2 = laneBits (lanes.filter fun i => decide (h.e (gDim d) ≤ nth 0 p.idx i)) ∧
        ∀ a, z.1.mem.read a = (lastWrite ((List.range lanes.length).flatMap fun n =>
          if at_ n < h.e (gDim d) then spotWrites p.access h (cs n) (s.localRead (row n) rs) else []) a).getD
            (s.mem.read a))) ∧
    -- a collective packet
    (let mine := s.parties.find? fun x => x.vdev == p.vdev && x.slot == p.slot && x.taken && !x.done
     (mine = none → s.collPacket p = s.packetEnd { p with exp := 0 } 1 p.slot) ∧
     (mine = some g → g.sentAll = false → s.collPacket p = s) ∧
     (mine = some g → g.sentAll = true → s.collPacket p =
      ((s.updParty g fun y => { y with done := true }).dropRemotes g).packetEnd { p with exp := 0 } 0 0)) ∧
    (1 ≤ raw → raw ≤ 64 → bs.length = 128 * raw → compressBlock raw blk bs = some out →
      out.length = 128 * blk ∧ expandBlock raw blk out = some bs) ∧
    -- collectiveAnnounce, planeLanding, relayForward
    (s.parties[k]? = some g → ∃ y, exec (.collectiveAnnounce k) s = .next y ∧
      (g.taken = true → g.announced = false → g.refused = false →
        y.parties = (s.parties.map fun a => if a = g then { a with announced := true } else a) ∧
        y.wire = s.wire ++ ((List.range g.npart).filter fun q => q != g.rank && g.peer q != 0xFFFF).map (fun q =>
          ⟨g.peer q, g.vdev, .announce, g.group, g.tag, g.rank, q, 0, 0, 0, false, g.rcore, g.dst, g.cnt, []⟩) ∧
        y.mem = s.mem ∧ y.cores = s.cores) ∧
      (g.taken = false ∨ g.announced = true ∨ g.refused = true → y = s)) ∧
    ((s.parties.flatMap fun p => s.jobsOf p true)[k]? = some j → exec (.planeLanding k) s = .next (s.runJob j) ∧
      j.p ∈ s.parties ∧ j.k = j.p.rank ∧ j.p.moves j.k j.r.rank = true ∧
      (j.peer = 0xFFFF → j.r ∈ s.parties ∧ j.r.announced = true) ∧
      (j.peer ≠ 0xFFFF → ∃ a ∈ s.remotes, a.peer = j.peer ∧ a.vdev = j.p.vdev ∧ a.group = j.p.group ∧ a.tag = j.p.tag ∧
        a.rank = j.r.rank) ∧
      ∀ t, t < j.p.tcount → j.p.stopped.contains (planeKey j.k j.r.rank t) = false →
        j.p.sent.get 0 (planeKey j.k j.r.rank j.t) ≤ j.p.sent.get 0 (planeKey j.k j.r.rank t)) ∧
    ((s.parties.flatMap fun p => s.jobsOf p false)[k]? = some j → exec (.relayForward k) s = .next (s.runJob j) ∧
      j.p ∈ s.parties ∧ j.k ≠ j.p.rank ∧ j.p.moves j.k j.r.rank = true ∧
      (j.peer = 0xFFFF → j.r ∈ s.parties ∧ j.r.announced = true)) ∧
    -- the plane that moves
    (let key := planeKey j.k j.r.rank j.t
     let m := j.p.sent.get 0 key
     let direct := j.k == j.p.rank
     let n := if direct then j.p.core else j.p.rcore
     let a := if direct then j.p.src + 16384 * ((if j.p.op == 2 then j.r.rank * j.p.tcount else 0) + j.t) + 2048 * m
       else j.p.dst + 16384 * (j.k * j.p.tcount + j.t) + 2048 * m
     let w := s.updParty j.p fun x => { x with sent := x.sent.set key (m + 1) }
     s.vdevOf n = j.p.vdev → a + 2048 ≤ (s.core n).spsz →
      (j.peer ≠ 0xFFFF → s.runJob j = { w with wire := s.wire ++ [⟨j.peer, j.p.vdev, .plane, j.p.group, j.p.tag, j.p.rank,
        j.r.rank, j.k, j.t, m, j.p.scope != 0, 0, 0, 0, (s.core n).scr a 2048⟩] }) ∧
      (j.peer = 0xFFFF →
        let at_ := j.r.dst + 16384 * (j.k * j.r.tcount + j.t) + 2048 * m
        let ctr := j.r.counter j.k j.t
        let c := (s.core j.r.rcore).plane ctr
        s.vdevOf j.r.rcore = j.r.vdev → ctr + 8 ≤ (s.core j.r.rcore).spsz → at_ + 2048 ≤ (s.core j.r.rcore).spsz →
        c.tag = j.r.tag → c.frozen = false → j.r.tb = 2 ^ 64 - 1 →
        let y := w.updCore j.r.rcore fun x => x.setScr at_ ((s.core n).scr a 2048)
        let y := if (if direct then j.p.scope else j.r.scope) != 0 then y.markWide j.r.rcore ctr true else y
        s.runJob j = (y.setPlane j.r.rcore ctr { c with planes := c.planes + 1 }).evAll j.r.rcore)) ∧
    -- cancelUpstream, truncation, errorNotice
    (s.partyOf m.vdev m.group m.tag m.dst = some g →
      let a := g.counter m.block m.tile
      let ok := s.vdevOf g.rcore = g.vdev ∧ ((s.core g.rcore).plane a).tag = g.tag ∧ a + 8 ≤ (s.core g.rcore).spsz
      (∀ o, s.partyOf m.vdev m.group m.tag m.src = some o → o.peer m.dst = 0xFFFF) →
      (s.cancels[k]? = some m → ∃ y, exec (.cancelUpstream k) s = .next y ∧ y.cancels = s.cancels.eraseIdx k ∧
        y.parties = s.parties.map fun a => if a = g then
          { a with stopped := a.stopped ++ [planeKey m.block m.src m.tile] } else a) ∧
      (s.counterHeld g m.block m.tile = false → s.truncs[k]? = some m → ∃ y, y = { s with truncs := s.truncs.eraseIdx k } ∧
        (ok → exec (.truncation k) s = .next (y.freeze g.rcore a false 1)) ∧
        (¬ ok → exec (.truncation k) s = .next y)) ∧
      (s.counterHeld g m.block m.tile = false → s.notices[k]? = some m → ∃ y, y = { s with notices := s.notices.eraseIdx k } ∧
        (ok → exec (.errorNotice k) s = .next (y.freeze g.rcore a true 1)) ∧
        (¬ ok → exec (.errorNotice k) s = .next y))) ∧
    (s.partyOf m.vdev m.group m.tag m.src = some b → b.peer m.dst ≠ 0xFFFF →
      let far := fun (o : WireKind) => s.wire ++
        [⟨b.peer m.dst, m.vdev, o, m.group, m.tag, m.src, m.dst, m.block, m.tile, m.planes, false, 0, 0, 0, []⟩]
      (s.cancels[k]? = some m → exec (.cancelUpstream k) s =
        .next { s with cancels := s.cancels.eraseIdx k, wire := far .cancel }) ∧
      (s.truncs[k]? = some m → exec (.truncation k) s =
        .next { s with truncs := s.truncs.eraseIdx k, wire := far .truncation }) ∧
      (s.notices[k]? = some m → exec (.errorNotice k) s =
        .next { s with notices := s.notices.eraseIdx k, wire := far .notice })) ∧
    (s.partyOf m.vdev m.group m.tag m.dst = none →
      (∀ o, s.partyOf m.vdev m.group m.tag m.src = some o → o.peer m.dst = 0xFFFF) →
      (s.cancels[k]? = some m → exec (.cancelUpstream k) s = .next s) ∧
      (s.truncs[k]? = some m → exec (.truncation k) s = .next s) ∧
      (s.notices[k]? = some m → exec (.errorNotice k) s = .next s))

/-- R252-R256, R258, R265, R267, R268, R287: what the memory system does to pages and chunks. A walk fills the TLBs; a
promotion and a demotion set MIG in the page's entry and name its new frame (of a demotion a frame that the spec leaves
open, log 8); a page's home is its first line's (log 52); the copy waits for pins and, of a demotion, for chunks, and moves
the page's bytes, in one move with its entry (log 56); an allocating write resumes in order; an epoch halves the counters;
prefetch requests are served from the front, those whose hint entry moves waiting; the system cores, or the host in recovery
too (log 96), give frames, chunks, a reserve and extents, and take extents back; a chunk that a line holds is refused (log
101). -/
def Obligations.PageEvents : Prop :=
  ∀ (s : State) (n va pier w base len k i q : Nat) (tr : Trans) (p : PageAt) (m : Migration) (f : Nat) (fs : List Nat)
    (a : AllocWait) (as_ : List AllocWait) (r : PrefReq) (rs : List PrefReq),
    let d := s.pier pier
    let copied := fun (y : State) => (s.upset = [] → i < 65536 → m.pte + 8 ≤ m.new ∨ m.new + 65536 ≤ m.pte →
      y.mem.read (m.new + i) = s.mem.read (m.old + i)) ∧ ∀ z ∈ y.migrations, z.pte ≠ m.pte
    -- pageWalk
    (tlbFind (s.core n).utlb (s.vdevOf n) va = none → s.lookup (s.tlbs n) (s.vdevOf n) va = some tr →
      fld tr.pte 11 11 = 0 → ∃ y, exec (.pageWalk n va) s = .next y ∧ (s.upset = [] → y.mem = s.mem) ∧
        (y.core n).utlb.head? = some ⟨s.vdevOf n, va / tr.size * tr.size, tr.size, BitVec.ofNat 64 tr.pte⟩) ∧
    (tlbFind (s.core n).utlb (s.vdevOf n) va ≠ none → exec (.pageWalk n va) s = .next s) ∧
    -- pagePromotion
    (let hot := fun (p : PageAt) => p.tier != 0 && !p.moving && homePier p.frame == pier
       && decide (bits d.migctl 63 48 ≤ s.access.get 0 (p.frame / 65536))
     (bit d.migctl 0 = true → d.frames = f :: fs → s.pages.find? hot = some p →
       exec (.pagePromotion pier) s = .next ((s.updPier pier fun d => { d with frames := fs }).migStart p f 0)) ∧
     (bit d.migctl 0 = false ∨ d.frames = [] ∨ s.pages.find? hot = none → exec (.pagePromotion pier) s = .next s)) ∧
    -- pageDemotion
    (bit d.migctl 0 = true → s.tierOpen = true → d.frames.length < bits d.migctl 15 1 →
      s.coldest (s.pages.filter fun p => p.tier == 0 && !p.moving && homePier p.frame == pier && !s.pinned p.frame) = some p →
      ∃ new, exec (.pageDemotion pier) s = .next ({ s with fresh := s.fresh + 1 }.migStart p new 1) ∧
        2 ^ 42 ≤ new ∧ new % 65536 = 0) ∧
    (bit d.migctl 0 = false ∨ s.tierOpen = false ∨ bits d.migctl 15 1 ≤ d.frames.length →
      exec (.pageDemotion pier) s = .next s) ∧
    -- the start of either
    (p.pte < 2 ^ 64 → (s.migStart p f k).mem.num p.entry 8 = p.pte ||| 0x800 ∧
      (s.migStart p f k).migrations = s.migrations ++ [⟨p.vdev, p.entry, p.va, p.frame, f, k, k != 0⟩] ∧
      ∀ e ∈ ((s.migStart p f k).core n).utlb, covers p.vdev p.va e = false) ∧
    -- migrationCopy
    (s.migrations[k]? = some m →
      (s.pinned m.old = true → exec (.migrationCopy k) s = .next s) ∧
      (s.pinned m.old = false → s.shortDie m = none → ∃ y, exec (.migrationCopy k) s = .next y ∧ copied y) ∧
      (s.pinned m.old = false → s.shortDie m = some q → (∀ z ∈ (s.pier q).allocWaits, z.migration ≠ m.pte) →
        ∃ y, exec (.migrationCopy k) s = .next y ∧ y.mem = s.mem ∧ y.migrations = s.migrations ∧
        (y.pier q).allocWaits = (s.pier q).allocWaits ++ [⟨m.pte, s.chunkNeed m q⟩] ∧ (y.pier q).chunkIrq = true)) ∧
    (m.chunked = false → s.shortDie m = none) ∧
    -- allocatingWriteResume
    (d.allocWaits = a :: as_ → s.migrations.findIdx? (fun z => z.pte == a.migration) = some k → s.migrations[k]? = some m →
      (s.pinned m.old = false → s.shortDie m = none → ∃ y, exec (.allocatingWriteResume pier) s = .next y ∧ copied y ∧
        ∀ z ∈ (y.pier pier).allocWaits, z.migration ≠ m.pte) ∧
      (s.pinned m.old = true → exec (.allocatingWriteResume pier) s = .next s)) ∧
    (d.allocWaits = [] → exec (.allocatingWriteResume pier) s = .next s) ∧
    -- epochHalving
    (∃ y, exec (.epochHalving pier) s = .next y ∧ y.mem = s.mem ∧ y.access.get 0 k =
      if homePier (k * 65536) = pier then s.access.get 0 k / 2 else s.access.get 0 k) ∧
    -- prefetchRequestServe
    (d.prefetch = [] → exec (.prefetchRequestServe pier) s = .next s) ∧
    (d.prefetch = r :: rs → s.frameMoving r.hint = true → exec (.prefetchRequestServe pier) s = .next s) ∧
    (d.prefetch = r :: rs → s.frameMoving r.hint = false →
      let y := s.updPier pier fun d => { d with prefetch := rs }
      (s.lookup [] r.vdev r.page = none → exec (.prefetchRequestServe pier) s =
        .next ((y.updVdev r.vdev fun d => { d with pfdrop := d.pfdrop + 1 }).hintServed r.hint true)) ∧
      (s.lookup [] r.vdev r.page = some tr → tierOf tr.pa = 0 → exec (.prefetchRequestServe pier) s =
        .next ((y.updVdev r.vdev fun d => { d with pfhit := d.pfhit + 1 }).hintServed r.hint false)) ∧
      (s.lookup [] r.vdev r.page = some tr → tierOf tr.pa ≠ 0 → tr.size = 65536 → s.walk r.vdev r.page = some tr →
        let g : PageAt := ⟨r.vdev, r.page, tr.entry, tr.pte, tr.size⟩
        (d.frames = [] ∨ bit d.migctl 0 = false ∨ g.moving = true ∨ s.pinned g.frame = true →
          exec (.prefetchRequestServe pier) s = .next s) ∧
        (d.frames = f :: fs → bit d.migctl 0 = true → g.moving = false → s.pinned g.frame = false →
          exec (.prefetchRequestServe pier) s =
            .next ((((y.updPier pier fun d => { d with frames := fs }).migStart g f 0).migEnd
              ⟨r.vdev, tr.entry, r.page, g.frame, f, 0, false⟩).hintServed (if g.frame ≤ r.hint ∧ r.hint < g.frame + 65536
                then f + (r.hint - g.frame) else r.hint) false)))) ∧
    -- extentReleaseRequest
    (∃ y, exec (.extentReleaseRequest base len) s = .next y ∧ (s.upset = [] → y.mem = s.mem) ∧
      (∀ c ∈ (y.pier pier).free, ¬ (base ≤ c ∧ c < base + len)) ∧
      (∀ e ∈ y.extents, ¬ (base ≤ e.1 ∧ e.1 + e.2 ≤ base + len)) ∧
      ∀ l ∈ y.l2 ++ y.msc, base ≤ l.pa * 512 → l.pa * 512 < base + len → l.dirty = 0) ∧
    -- forcedExtentRemoval
    (∃ y, exec (.forcedExtentRemoval base len) s = .next y ∧ (base, len) ∈ y.removed ∧
      (1 ≤ len → ∀ v, (y.homeRead base 1 v 0).2 = .error 3) ∧ (∀ c ∈ (y.pier pier).free, ¬ (base ≤ c ∧ c < base + len)) ∧
      (∀ l ∈ y.l2 ++ y.msc, ¬ (base ≤ l.pa * 512 ∧ l.pa * 512 < base + len)) ∧
      (∀ l ∈ (y.core n).l1, ¬ (base ≤ l.pa * 512 ∧ l.pa * 512 < base + len)) ∧
      (s.l2 = [] → s.msc = [] → (∀ c ∈ s.cores, c.2.l1 = []) → y.mem = s.mem)) ∧
    -- extentGrant
    exec (.extentGrant base len) s =
      .next { s with extents := s.extents ++ [(base, len)], removed := s.removed.filter fun e => e != (base, len) } ∧
    -- chunkAddWrite
    (pier < 4 →
      let c := fld w 51 7 * 128
      let listed := (s.piers.any fun d => d.2.free.contains c) || s.chunkOf.any fun e => e.2.contains c
      let granted := 2 ^ 42 ≤ c ∧ c + 128 ≤ 2 ^ 42 + 4096 * 2 ^ 30 ∨ inList s.extents c 128 = true
      let opens := fun (y : State) =>
        y.tierOpen = true ↔ s.tierOpen = true ∨ ∀ b, b < 4 → (y.pier b).chunkRsv < (y.pier b).free.length
      (listed = false → granted → ∃ y, exec (.chunkAddWrite pier w) s = .next y ∧ (y.pier pier).free = d.free ++ [c] ∧
        opens y ∧ y.mem = s.mem) ∧
      (listed = true ∨ ¬ granted → exec (.chunkAddWrite pier w) s = .next (s.errorLog pier 2 w)) ∧
      -- chunkRsvWrite
      (w % 2 ^ 32 < 1572864 → exec (.chunkRsvWrite pier w) s = .next (s.errorLog pier 1 w)) ∧
      (1572864 ≤ w % 2 ^ 32 → ∃ y, exec (.chunkRsvWrite pier w) s = .next y ∧ (y.pier pier).chunkRsv = w % 2 ^ 32 ∧
        (y.pier pier).free = d.free ∧ opens y ∧ y.mem = s.mem ∧
        ((y.pier pier).chunkIrq = true ↔ d.chunkIrq = true ∨
          (d.chunkRsv < d.free.length ∧ d.free.length ≤ w % 2 ^ 32))) ∧
      -- frameAddWrite
      exec (.frameAddWrite pier w) s =
        .next (s.updPier pier fun d => { d with frames := d.frames ++ [fld w 51 16 * 65536] }))

/-- R3, R18, R267-R269, R274, R366, R418-R430: what the host, a peer, a system core and the Polrum port do, and what heat
does. Host and peer accesses reach device memory through the virtual device's window and translation, wait for a page
that migrates, and where refused return no data; an atomic writes the new value and returns the old; a peer's collective
messages come and go over its port; a reset boots the first slot the boot ROM accepts, or leaves the package in recovery,
where PF0 alone is reached; a cluster changes hands cleared; a report begins with its nonce; the floor never falls; 105
degrees on the hottest sensor of a Span die slow its array island by one step and 100 or less speed it up; 115 degrees on any
sensor, or more than 5,200 W for 10 ms, stops the package. The model's own: what memory reads at reset (log 2), the islands'
reset values (log 5), where flash holds what (log 6), the level of host and peer accesses (log 27), the format of peer
messages (log 33), of telemetry (log 36) and of configuration addresses (log 37), a system core's store (log 61), the
operations of a port (log 74), a cluster of no device (log 93), what recovery leaves (log 96), the atomics' place (log
100). -/
def Obligations.PlatformEvents : Prop :=
  ∀ (s u : State) (v off len w cmp port pa va pier temp power us k c reg by_ : Nat) (bs nonce : List Byte) (e : Nat × Nat)
    (tr : Trans) (m : Wire) (ms : List Wire),
    let free := s.waitq = [] ∧ s.migrations = []
    -- hostMemoryWrite, hostMemoryRead
    (s.hostVa v off bs.length = some va →
      (free → s.devWrite v va bs true 0xFFF = (u, .ok ()) →
        exec (.hostMemoryWrite v off bs) s = .next { u with reply := [] }) ∧
      (free → s.devWrite v va bs true 0xFFF = (u, .error e) →
        exec (.hostMemoryWrite v off bs) s = .next (u.refuse ⟨none, v, va, .write bs⟩ e.1 e.2)) ∧
      (s.moving [] v va bs.length = true → exec (.hostMemoryWrite v off bs) s =
        .next { s with waitq := s.waitq ++ [⟨none, v, va, .write bs⟩], reply := [] })) ∧
    (s.hostVa v off len = some va →
      (free → s.devRead v va len true = (u, .ok bs) → exec (.hostMemoryRead v off len) s = .next { u with reply := bs }) ∧
      (free → s.devRead v va len true = (u, .error e) →
        exec (.hostMemoryRead v off len) s = .next (u.refuse ⟨none, v, va, .read len⟩ e.1 e.2)) ∧
      (s.moving [] v va len = true → exec (.hostMemoryRead v off len) s =
        .next { s with waitq := s.waitq ++ [⟨none, v, va, .read len⟩], reply := [] })) ∧
    (v < 64 → s.hostVa v off len = none → exec (.hostMemoryRead v off len) s = .next { s with reply := [] }) ∧
    (s.hostVa v off bs.length = none → exec (.hostMemoryWrite v off bs) s = .next { s with reply := [] }) ∧
    (s.recovery = true ∨ 64 ≤ v → s.hostVa v off len = none) ∧
    -- hostMemoryRead of BAR 0: PF0, and a virtual function
    (exec (.hostMemoryRead 64 off len) s = .next
      { s with reply := toBytes 8 (s.cfgRead (off / 8 / 2 ^ 18) (off / 8 / 2 ^ 8 % 2 ^ 10) (off / 8 % 2 ^ 8)) }) ∧
    (s.bootstat.length = 64 → k < 8 → exec (.hostMemoryRead 64 (8 * (5 * 2 ^ 18 + k)) len) s =
      .next { s with reply := (s.bootstat.drop (8 * k)).take 8 }) ∧
    (v < 64 → exec (.hostMemoryRead (65 + v) off len) s =
      .next { s with reply := if s.recovery then [] else toBytes 8 ((s.vdev v).read (off / 8)) }) ∧
    -- hostAtomicopFetchadd, hostAtomicopSwap, hostAtomicopCas, causewayAccess
    (s.translate [] v va .w true = .ok tr → s.readCause tr.pa 8 = 0 → s.upset = [] → va % 8 = 0 → free →
      let old := s.mem.num tr.pa 8
      let after := fun (y : State) (new : Nat) => y.reply = s.mem.readN tr.pa 8 ∧
        y.mem.num tr.pa 8 = new % 2 ^ 64 ∧ ∀ a, a < tr.pa ∨ tr.pa + 8 ≤ a → y.mem.read a = s.mem.read a
      (s.hostVa v off 8 = some va →
        (∃ y, exec (.hostAtomicopFetchadd v off w) s = .next y ∧ after y (old + w)) ∧
        (∃ y, exec (.hostAtomicopSwap v off w) s = .next y ∧ after y w) ∧
        (∃ y, exec (.hostAtomicopCas v off cmp w) s = .next y ∧ after y (if old = cmp % 2 ^ 64 then w else old))) ∧
      (port < 16 → v < 64 → ∃ y, exec (.causewayAccess port v 2 va bs) s = .next y ∧ after y (old + 1))) ∧
    (port < 16 → v < 64 →
      let peer := portPeer port
      (free →
        (s.devWrite v va bs true 0xFFF = (u, .ok ()) →
          exec (.causewayAccess port v 0 va bs) s = .next { u with reply := [] }) ∧
        (s.devRead v va bs.length true = (u, .ok nonce) → exec (.causewayAccess port v 1 va bs) s =
          .next { u with reply := nonce }) ∧
        (s.devRead v va bs.length true = (u, .error e) → exec (.causewayAccess port v 1 va bs) s =
          .next (u.refuse ⟨some peer, v, va, .read bs.length⟩ e.1 e.2)) ∧
        (wireOf peer v bs = some m → s.wireHeld m = false → exec (.causewayAccess port v 3 va bs) s =
          .next { s.wireArrive m with reply := [] })) ∧
      (s.wire = m :: ms → m.peer = peer → m.vdev = v → exec (.causewayAccess port v 4 va bs) s =
        .next { s with wire := ms, reply := m.bytes }) ∧
      ((∀ x ∈ s.wire, x.peer = peer → x.vdev ≠ v) → exec (.causewayAccess port v 4 va bs) s =
        .next { s with reply := [] })) ∧
    (16 ≤ port ∨ 64 ≤ v → exec (.causewayAccess port v w va bs) s = .next { s with reply := [] }) ∧
    (m.kind = .announce → (s.wireArrive m).remotes.head? = some ⟨m.peer, m.vdev, m.group, m.tag, m.src, m.core, m.at_, m.cnt⟩ ∧
      (s.wireArrive m).mem = s.mem) ∧
    (m.data.length ≤ 2048 → m.src < 256 → m.dst < 256 → m.block < 256 → m.tile < 256 → m.planes < 256 → m.group < 2 ^ 64 →
      m.tag < 2 ^ 32 → m.core < 2 ^ 32 → m.at_ < 2 ^ 32 → m.cnt < 2 ^ 32 → wireOf m.peer m.vdev m.bytes = some m) ∧
    -- hwbaseWrite, configRegisterWrite
    (v < 64 → exec (.hwbaseWrite v w) s =
      .next (s.updVdev v fun d => { d with hwbase := BitVec.ofNat 64 (w / 2 ^ 40 % 2 ^ 12 * 2 ^ 40) })) ∧
    -- a system core, or the host through PF0, in recovery too
    ((by_ = 0 ∧ s.recovery = false) ∨ by_ = 1 →
      (v < 64 → reg < 32 → exec (.configRegisterWrite ⟨by_, 0⟩ v reg w) s =
        .next (s.updCluster v fun c => { c with timers := c.timers.set reg (BitVec.ofNat 64 w) })) ∧
      (v < 64 → exec (.configRegisterWrite ⟨by_, 1⟩ v reg w) s =
        .next ((s.updVdev v fun d => d.write reg w).requeue v reg)) ∧
      (v < 64 → reg < 64 → exec (.configRegisterWrite ⟨by_, 1⟩ v reg w) s = .next (s.updVdev v fun d => d.write reg w)) ∧
      (pier < 4 → by_ = 0 ∨ reg ≠ 2 → exec (.configRegisterWrite ⟨by_, 2⟩ pier reg w) s =
        .next (s.updPier pier fun d => d.write reg w))) ∧
    (s.recovery = false → k < 8 → 8 ≤ w → w ≤ 16 → exec (.configRegisterWrite ⟨0, 3⟩ k reg (62500 * w)) s =
      .next { s with arrayFreq := s.arrayFreq.set k (62500 * w) }) ∧
    (k < 8 → exec (.configRegisterWrite ⟨1, 3⟩ k reg w) s = .next s ∧ exec (.configRegisterWrite ⟨1, 2⟩ pier 2 w) s = .next s) ∧
    -- the host through virtual function v: LQTAB, HWBASE and the writable fields of HVLOG of its own device
    (s.recovery = false → v < 64 →
      (reg = 9 ∨ reg = 10 ∨ reg = 14 ∨ (128 ≤ reg ∧ reg < 144) → exec (.configRegisterWrite ⟨v + 2, 1⟩ v reg w) s =
        .next ((s.updVdev v fun d => d.write reg w).requeue v reg)) ∧
      (¬ (reg = 9 ∨ reg = 10 ∨ reg = 14 ∨ (128 ≤ reg ∧ reg < 144)) ∨ k ≠ v →
        exec (.configRegisterWrite ⟨v + 2, 1⟩ k reg w) s = .next s)) ∧
    (s.recovery = true → by_ ≠ 1 → exec (.configRegisterWrite ⟨by_, k⟩ v reg w) s = .next s) ∧
    -- packageReset, polrumPackageReset
    (∃ y, exec .packageReset s = .next y ∧ exec .polrumPackageReset s = .next y ∧ y.flash = s.flash ∧ y.cores = [] ∧
      y.launches = [] ∧ y.stopped = false ∧ y.puf = s.seeds ∧ y.puf.length = 128 ∧
      let z := { State.reset with flash := s.flash, puf := s.seeds }
      match (z.bootSlot 0).or (z.bootSlot 1) with
      | none => y.recovery = true ∧ y.mem.cells = [] ∧ y.sysPc = none
      | some b => y.recovery = false ∧ y.bootver = b.1 ∧ y.bootstat = Config.sha512 b.2.2 ∧ y.sysPc = some b.2.1 ∧
          y.mem.readN b.2.1 b.2.2.length = b.2.2) ∧
    -- virtualDeviceReset, clusterReassignment
    (s.recovery = false →
      (v < 64 → ∃ y, exec (.virtualDeviceReset v) s = .next y ∧ (y.vdev v).ptbase = 0 ∧ (y.vdev v).htbase = 0 ∧
        (y.vdev v).mscpol = 0x10 ∧ ∀ q, tabOn ((y.vdev v).cqtab.get 0 q) = false ∧ tabOn ((y.vdev v).lqtab.get 0 q) = false) ∧
      (c < 64 → ∃ y, exec (.clusterReassignment c v) s = .next y ∧
        (y.cluster c).device = (if v < 64 then some v else none) ∧
        (y.cluster c).csram.cells = [] ∧ (y.cluster c).lists = [] ∧ (y.cluster c).parked = [])) ∧
    (s.recovery = true → exec (.virtualDeviceReset v) s = .next s ∧ exec (.clusterReassignment c v) s = .next s) ∧
    -- attestationRequest, polrumAttest
    (∃ y z, exec (.attestationRequest v nonce) s = .next y ∧ exec (.polrumAttest nonce) s = .next z ∧
      (nonce.length = 32 → z.reply.take 32 = nonce) ∧ (nonce.length = 32 → s.recovery = false → y.reply.take 32 = nonce) ∧
      (s.recovery = true → y.reply = []) ∧ y = { s with reply := y.reply } ∧ z = { s with reply := z.reply }) ∧
    -- writeImageSlot, raiseFloor
    (v < 2 → bs.length ≤ 33554432 → ∃ y, exec (.writeImageSlot v bs) s = .next y ∧
      y.flash.readN (33554432 * v) bs.length = bs ∧ y = { s with flash := y.flash }) ∧
    (2 ≤ v → exec (.writeImageSlot v bs) s = .next s) ∧
    (s.sysPc = none → exec (.raiseFloor bs) s = .next s) ∧
    (s.sysPc ≠ none → ∃ y, exec (.raiseFloor bs) s = .next y ∧ y = { s with flash := y.flash } ∧
      if numAt bs 0 4 < s.floor then y = s else
        y.floor = numAt bs 0 4 ∧ numAt (y.flash.readN 67108864 4) 0 4 = numAt bs 0 4 ∧
        ∀ a, a < 67108864 ∨ 67108864 + 64 ≤ a → y.flash.read a = s.flash.read a) ∧
    -- readTelemetry, readErrorLog
    (∃ y, exec .readTelemetry s = .next y ∧ y = { s with reply := y.reply } ∧ y.reply =
      ((List.range 128).flatMap fun k => toBytes 4 (s.temps.get 0 k)) ++ toBytes 4 s.power
        ++ ((List.range 8).flatMap fun k => toBytes 4 (s.arrayFreq.get 1000000 k))
        ++ ((List.range 8).flatMap fun _ => toBytes 4 1000000)
        ++ ((List.range 4).flatMap fun k => toBytes 4 (1000 * Config.memoryFreq k))
        ++ (List.range 4).flatMap fun k => toBytes 4 (1000 * (s.pier k).fabric)) ∧
    (∃ y, exec (.readErrorLog pier) s = .next y ∧ y = { s with reply := y.reply } ∧ y.reply.length = 1032 ∧
      numAt y.reply 1024 4 = (s.pier pier).logHead % 2 ^ 32) ∧
    -- thermalStep, thermalTrip
    (k < 128 → ∃ y, exec (.thermalStep k temp) s = .next y ∧ y.temps = s.temps.set k temp ∧
      let die := k / 16
      let hot := y.hottest die
      (∀ i, i < 16 → y.temps.get 0 (16 * die + i) ≤ hot) ∧ (∃ i, i < 16 ∧ y.temps.get 0 (16 * die + i) = hot) ∧
      (105 ≤ hot → y.freq die = max 500000 (s.freq die - 62500)) ∧
      (hot ≤ 100 → y.freq die = min 1000000 (s.freq die + 62500)) ∧ (100 < hot → hot < 105 → y.freq die = s.freq die) ∧
      ∀ q, q ≠ die → y.freq q = s.freq q) ∧
    (k < 128 → ∃ y, exec (.thermalTrip ⟨k, temp⟩ ⟨power, us⟩) s = .next y ∧ y.power = power ∧ y.mem = s.mem ∧
      y.temps = s.temps.set k temp ∧
      ((∃ i, i < 128 ∧ 115 ≤ y.temps.get 0 i) ∨ (5200 < power ∧ 10000 ≤ us) → y.stopped = true ∧ y.alert = true) ∧
      ((∀ i, i < 128 → y.temps.get 0 i < 115) → power ≤ 5200 ∨ us < 10000 → y.stopped = s.stopped ∧ y.alert = s.alert)) ∧
    -- systemCoreStore
    (s.upset = [] → s.gone pa bs.length = false → s.recovery = false → ∃ y, exec (.systemCoreStore pa bs) s = .next y ∧
      y.mem.readN pa bs.length = bs ∧ ∀ a, a < pa ∨ pa + bs.length ≤ a → y.mem.read a = s.mem.read a) ∧
    (s.recovery = true → exec (.systemCoreStore pa bs) s = .next s)
end

