-- ==== Sys2Proof/Laws/Table.lean ====
section
/-! SUPPORT. Laws/Table.lean: indexed tables and the machine's memories: read after write, and the canonical form. -/

namespace Sys2Proof

/-! ## Tables -/

theorem Tbl.get_set {α : Type} (d : α) (k : Nat) (v : α) (t : Tbl α) (i : Nat) :
    (Tbl.set k v t).get d i = if i = k then v else t.get d i := by
  induction t with
  | nil => simp [Tbl.set, Tbl.get]
  | cons e t ih =>
    obtain ⟨k', v'⟩ := e
    simp only [Tbl.set]
    split
    · simp [Tbl.get]
    · split
      · subst_vars
        simp only [Tbl.get]
        split <;> simp_all
      · simp only [Tbl.get, ih]
        split
        · next h => rw [if_neg]; rintro rfl; simp_all
        · rfl

@[simp] theorem Tbl.get_set_self {α : Type} (d : α) (k : Nat) (v : α) (t : Tbl α) : (Tbl.set k v t).get d k = v := by
  simp [Tbl.get_set]

@[simp] theorem Tbl.get_set_ne {α : Type} (d : α) (k : Nat) (v : α) (t : Tbl α) (i : Nat) (h : i ≠ k) :
    (Tbl.set k v t).get d i = t.get d i := by simp [Tbl.get_set, h]

@[simp] theorem Tbl.get_nil {α : Type} (d : α) (k : Nat) : Tbl.get d k ([] : Tbl α) = d := rfl

theorem Tbl.get_mapVals {α : Type} (d d' : α) (f : Nat → α → α) (t : Tbl α) (k : Nat) (h : f k d = d') :
    (t.mapVals f).get d' k = f k (t.get d k) := by
  induction t with
  | nil => simp [Tbl.mapVals, Tbl.get, h]
  | cons e t ih =>
    obtain ⟨k', v⟩ := e
    simp only [Tbl.mapVals, List.map_cons, Tbl.get] at ih ⊢
    split
    · subst_vars; rfl
    · exact ih

/-! ## Numbers and bytes -/

@[simp] theorem toBytes_length (n v : Nat) : (toBytes n v).length = n := by
  induction n generalizing v with
  | zero => rfl
  | succ n ih => simp [toBytes, ih]

theorem ofBytes_toBytes (n v : Nat) : ofBytes (toBytes n v) = v % 2 ^ (8 * n) := by
  induction n generalizing v with
  | zero => simp [toBytes, ofBytes, Nat.mod_one]
  | succ n ih =>
    have h : 2 ^ (8 * (n + 1)) = 256 * 2 ^ (8 * n) := by rw [Nat.mul_add, Nat.pow_add]; ring
    simp only [toBytes, ofBytes, ih, BitVec.toNat_ofNat, h, Nat.mod_mul]

end Sys2Proof

namespace Sys2Proof.Machine

open Sys2Proof

/-! ## One memory -/

theorem cellByte_append (a b : List Host.Cell) (k : Nat) (h : ∀ c ∈ a, c.1 ≠ k) : cellByte (a ++ b) k = cellByte b k := by
  have hf : a.find? (fun c => c.1 == k) = none := by simpa using h
  simp [cellByte, List.find?_append, hf]

theorem cellByte_append_left (a b : List Host.Cell) (k : Nat) (h : ∀ c ∈ b, c.1 ≠ k) :
    cellByte (a ++ b) k = cellByte a k := by
  have hf : b.find? (fun c => c.1 == k) = none := by simpa using h
  simp [cellByte, List.find?_append, hf]

theorem cellByte_filter (l : List Host.Cell) (p : Nat → Bool) (k : Nat) (h : p k = true) :
    cellByte (l.filter fun c => p c.1) k = cellByte l k := by
  induction l with
  | nil => rfl
  | cons e l ih =>
    by_cases he : p e.1 = true
    · rw [List.filter_cons_of_pos (by simpa using he)]
      by_cases hk : (e.1 == k) = true
      · simp [cellByte, hk]
      · simp only [cellByte, List.find?_cons, hk] at ih ⊢
        exact ih
    · rw [List.filter_cons_of_neg (by simpa using he), ih]
      have hk : (e.1 == k) = false := by
        rw [beq_eq_false_iff_ne]; rintro rfl; exact he h
      simp [cellByte, hk]

theorem cellByte_filter_none (l : List Host.Cell) (p : Nat → Bool) (k : Nat) (h : p k = false) :
    cellByte (l.filter fun c => p c.1) k = 0 := by
  have hf : (l.filter fun c => p c.1).find? (fun c => c.1 == k) = none := by
    simp only [List.find?_eq_none, List.mem_filter]
    rintro c ⟨-, hp⟩ hc
    rw [beq_iff_eq] at hc
    simp_all
  simp [cellByte, hf]

theorem place_mem (a : Nat) (bs : List Byte) : ∀ c ∈ Memory.place a bs, a ≤ c.1 ∧ c.1 < a + bs.length := by
  induction bs generalizing a with
  | nil => simp [Memory.place]
  | cons b t ih =>
    intro c hc
    simp only [Memory.place] at hc
    split at hc
    · have := ih (a + 1) c hc; simp only [List.length_cons]; omega
    · rcases List.mem_cons.1 hc with rfl | hc
      · simp
      · have := ih (a + 1) c hc; simp only [List.length_cons]; omega

theorem cellByte_place (a : Nat) (bs : List Byte) (i : Nat) (h : i < bs.length) :
    cellByte (Memory.place a bs) (a + i) = bs.getD i 0 := by
  induction bs generalizing a i with
  | nil => simp at h
  | cons b t ih =>
    have hl : ∀ c ∈ Memory.place (a + 1) t, c.1 ≠ a := fun c hc => by have := place_mem (a + 1) t c hc; omega
    have hn : (Memory.place (a + 1) t).find? (fun c => c.1 == a) = none := by simpa using hl
    cases i with
    | zero =>
      simp only [Memory.place, Nat.add_zero, List.getD_cons_zero]
      split
      · next hb => simp [cellByte, hn, (beq_iff_eq.1 hb)]
      · simp [cellByte]
    | succ i =>
      have := ih (a + 1) i (by simpa using h)
      rw [show a + 1 + i = a + (i + 1) by omega] at this
      simp only [Memory.place, List.getD_cons_succ]
      split
      · exact this
      · rw [← this]
        have : ((a : Nat) == a + (i + 1)) = false := by rw [beq_eq_false_iff_ne]; omega
        simp [cellByte, this]

theorem read_writeN (m : Memory) (a : Nat) (bs : List Byte) (k : Nat) :
    (m.writeN a bs).read k = if a ≤ k ∧ k < a + bs.length then bs.getD (k - a) 0 else m.read k := by
  simp only [Memory.read, Memory.writeN]
  split
  · next h =>
    rw [cellByte_append_left _ _ k (by intro c hc; simp only [List.mem_filter, decide_eq_true_eq] at hc; omega),
      cellByte_append _ _ k (by intro c hc; simp only [List.mem_filter, decide_eq_true_eq] at hc; omega)]
    have := cellByte_place a bs (k - a) (by omega)
    rwa [show a + (k - a) = k by omega] at this
  · next h =>
    rcases Nat.lt_or_ge k a with hk | hk
    · rw [List.append_assoc, cellByte_append_left _ _ k]
      · exact cellByte_filter _ (fun x => decide (x < a)) k (by simpa using hk)
      · intro c hc
        rcases List.mem_append.1 hc with hc | hc
        · have := place_mem a bs c hc; omega
        · simp only [List.mem_filter, decide_eq_true_eq] at hc; omega
    · rw [cellByte_append _ _ k]
      · exact cellByte_filter _ (fun x => decide (a + bs.length ≤ x)) k (by simp; omega)
      · intro c hc
        rcases List.mem_append.1 hc with hc | hc
        · simp only [List.mem_filter, decide_eq_true_eq] at hc; omega
        · have := place_mem a bs c hc; omega

theorem read_writeN_ne (m : Memory) (a : Nat) (bs : List Byte) (k : Nat) (h : k < a ∨ a + bs.length ≤ k) :
    (m.writeN a bs).read k = m.read k := by rw [read_writeN, if_neg (by omega)]

theorem read_zero (m : Memory) (a n k : Nat) :
    (m.zero a n).read k = if a ≤ k ∧ k < a + n then 0 else m.read k := by
  simp only [Memory.read, Memory.zero]
  have e : (fun c : Host.Cell => decide (c.1 < a) || decide (a + n ≤ c.1)) =
      fun c : Host.Cell => (fun x => decide (x < a) || decide (a + n ≤ x)) c.1 := rfl
  simp only [e]
  split
  · exact cellByte_filter_none _ (fun x => decide (x < a) || decide (a + n ≤ x)) k
      (by rw [Bool.or_eq_false_iff, decide_eq_false_iff_not, decide_eq_false_iff_not]; omega)
  · exact cellByte_filter _ (fun x => decide (x < a) || decide (a + n ≤ x)) k
      (by rw [Bool.or_eq_true, decide_eq_true_eq, decide_eq_true_eq]; omega)

theorem readN_eq (m : Memory) (a n : Nat) : m.readN a n = (List.range n).map fun i => m.read (a + i) := by
  simp only [Memory.readN, tab, Memory.read]
  refine List.map_congr_left fun i hi => ?_
  exact cellByte_filter m.cells (fun x => decide (a ≤ x ∧ x < a + n)) (a + i) (by simp at hi ⊢; omega)

@[simp] theorem readN_length (m : Memory) (a n : Nat) : (m.readN a n).length = n := by simp [readN_eq]

theorem readN_writeN (m : Memory) (a : Nat) (bs : List Byte) : (m.writeN a bs).readN a bs.length = bs := by
  rw [readN_eq]
  refine List.ext_getElem (by simp) fun i h1 h2 => ?_
  simp only [List.getElem_map, List.getElem_range, read_writeN]
  rw [if_pos ⟨by omega, by simpa using h2⟩]
  simp [List.getElem?_eq_getElem h2]

theorem readN_writeN_ne (m : Memory) (a : Nat) (bs : List Byte) (b n : Nat) (h : b + n ≤ a ∨ a + bs.length ≤ b) :
    (m.writeN a bs).readN b n = m.readN b n := by
  simp only [readN_eq]
  refine List.map_congr_left fun i hi => ?_
  rw [List.mem_range] at hi
  exact read_writeN_ne m a bs (b + i) (by omega)

theorem num_writeN (m : Memory) (a n v : Nat) : (m.writeN a (toBytes n v)).num a n = v % 2 ^ (8 * n) := by
  have := readN_writeN m a (toBytes n v)
  rw [toBytes_length] at this
  rw [Memory.num, this, ofBytes_toBytes]

/-! ## The canonical form -/

theorem wfFrom_iff (lo : Nat) (l : List Host.Cell) :
    Memory.wfFrom lo l = true ↔ l.Pairwise (fun a b => a.1 < b.1) ∧ (∀ c ∈ l, lo ≤ c.1 ∧ c.2 ≠ 0) := by
  induction l generalizing lo with
  | nil => simp [Memory.wfFrom]
  | cons e t ih =>
    obtain ⟨a, v⟩ := e
    simp only [Memory.wfFrom, Bool.and_eq_true, decide_eq_true_eq, bne_iff_ne, ih, List.pairwise_cons,
      List.forall_mem_cons]
    constructor
    · rintro ⟨⟨h1, h2⟩, h3, h4⟩
      exact ⟨⟨fun c hc => (h4 c hc).1, h3⟩, ⟨h1, h2⟩, fun c hc => ⟨by have := (h4 c hc).1; omega, (h4 c hc).2⟩⟩
    · rintro ⟨⟨h1, h2⟩, ⟨h3, h4⟩, h5⟩
      exact ⟨⟨h3, h4⟩, h2, fun c hc => ⟨h1 c hc, (h5 c hc).2⟩⟩

theorem wf_iff (m : Memory) : m.wf = true ↔ m.cells.Pairwise (fun a b => a.1 < b.1) ∧ ∀ c ∈ m.cells, c.2 ≠ 0 := by
  simp [Memory.wf, wfFrom_iff]

theorem place_wf (a : Nat) (bs : List Byte) :
    (Memory.place a bs).Pairwise (fun x y => x.1 < y.1) ∧ ∀ c ∈ Memory.place a bs, c.2 ≠ 0 := by
  induction bs generalizing a with
  | nil => simp [Memory.place]
  | cons b t ih =>
    simp only [Memory.place]
    split
    · exact ih (a + 1)
    · next hb =>
      refine ⟨List.pairwise_cons.2 ⟨fun c hc => ?_, (ih (a + 1)).1⟩, List.forall_mem_cons.2 ⟨?_, (ih (a + 1)).2⟩⟩
      · have := place_mem (a + 1) t c hc; show a < c.1; omega
      · simpa using hb

theorem wf_writeN (m : Memory) (a : Nat) (bs : List Byte) (h : m.wf = true) : (m.writeN a bs).wf = true := by
  rw [wf_iff] at h ⊢
  obtain ⟨h1, h2⟩ := h
  simp only [Memory.writeN]
  refine ⟨List.pairwise_append.2 ⟨List.pairwise_append.2 ⟨h1.filter _, (place_wf a bs).1, ?_⟩, h1.filter _, ?_⟩, ?_⟩
  · intro x hx y hy
    simp only [List.mem_filter, decide_eq_true_eq] at hx
    have := place_mem a bs y hy
    omega
  · intro x hx y hy
    simp only [List.mem_filter, decide_eq_true_eq] at hy
    rcases List.mem_append.1 hx with hx | hx
    · simp only [List.mem_filter, decide_eq_true_eq] at hx; omega
    · have := place_mem a bs x hx; omega
  · intro c hc
    rcases List.mem_append.1 hc with hc | hc
    · rcases List.mem_append.1 hc with hc | hc
      · exact h2 c (List.mem_filter.1 hc).1
      · exact (place_wf a bs).2 c hc
    · exact h2 c (List.mem_filter.1 hc).1

theorem wf_zero (m : Memory) (a n : Nat) (h : m.wf = true) : (m.zero a n).wf = true := by
  rw [wf_iff] at h ⊢
  exact ⟨h.1.filter _, fun c hc => h.2 c (List.mem_filter.1 hc).1⟩

theorem reset_mem_wf : State.reset.mem.wf = true := rfl

end Sys2Proof.Machine
end

