-- ==== Sys2Proof/Laws/State.lean ====
section
/-! SUPPORT. Laws/State.lean: what the updates of State and Core leave, one lemma per field per update. -/

namespace Sys2Proof.Machine

open Sys2Proof

/-! ## Cores and contexts -/

@[simp] theorem core_setCore (s : State) (n : Nat) (c : Core) : (s.setCore n c).core n = c := by
  simp [State.core, State.setCore]

theorem core_setCore_ne (s : State) (n m : Nat) (c : Core) (h : m ≠ n) : (s.setCore n c).core m = s.core m := by
  simp [State.core, State.setCore, h]

@[simp] theorem core_updCore (s : State) (n : Nat) (f : Core → Core) : (s.updCore n f).core n = f (s.core n) := by
  simp [State.updCore]

theorem core_updCore_ne (s : State) (n m : Nat) (f : Core → Core) (h : m ≠ n) : (s.updCore n f).core m = s.core m :=
  core_setCore_ne s n m _ h

@[simp] theorem cctx_setCtx (c : Core) (j : Nat) (x : Ctx) : (c.setCtx j x).ctx j = x := by simp [Core.ctx, Core.setCtx]

theorem cctx_setCtx_ne (c : Core) (j k : Nat) (x : Ctx) (h : k ≠ j) : (c.setCtx j x).ctx k = c.ctx k := by
  simp [Core.ctx, Core.setCtx, h]

@[simp] theorem core_setCtx (s : State) (n j : Nat) (x : Ctx) : (s.setCtx n j x).core n = (s.core n).setCtx j x := by
  simp [State.setCtx]

@[simp] theorem core_updCtx (s : State) (n j : Nat) (f : Ctx → Ctx) :
    (s.updCtx n j f).core n = (s.core n).setCtx j (f (s.ctx n j)) := by simp [State.updCtx]

@[simp] theorem ctx_setCtx (s : State) (n j : Nat) (x : Ctx) : (s.setCtx n j x).ctx n j = x := by simp [State.ctx]

@[simp] theorem ctx_updCtx (s : State) (n j : Nat) (f : Ctx → Ctx) : (s.updCtx n j f).ctx n j = f (s.ctx n j) := by
  simp [State.updCtx]

theorem ctx_setCore_ne (s : State) (n m j : Nat) (c : Core) (h : m ≠ n) : (s.setCore n c).ctx m j = s.ctx m j := by
  simp [State.ctx, core_setCore_ne s n m c h]

theorem ctx_setCtx_ne (s : State) (n j m k : Nat) (x : Ctx) (h : m ≠ n ∨ k ≠ j) :
    (s.setCtx n j x).ctx m k = s.ctx m k := by
  rcases eq_or_ne m n with rfl | hm
  · have hk : k ≠ j := h.resolve_left (by simp)
    simp [State.ctx, cctx_setCtx_ne _ j k x hk]
  · exact ctx_setCore_ne s n m k _ hm

theorem ctx_updCtx_ne (s : State) (n j m k : Nat) (f : Ctx → Ctx) (h : m ≠ n ∨ k ≠ j) :
    (s.updCtx n j f).ctx m k = s.ctx m k := ctx_setCtx_ne s n j m k _ h

/-! ## Clusters, Pier dies, virtual devices -/

@[simp] theorem cluster_updCluster (s : State) (n : Nat) (f : Cluster → Cluster) :
    (s.updCluster n f).cluster n = f (s.cluster n) := by simp [State.cluster, State.updCluster]

theorem cluster_updCluster_ne (s : State) (n m : Nat) (f : Cluster → Cluster) (h : m ≠ n) :
    (s.updCluster n f).cluster m = s.cluster m := by simp [State.cluster, State.updCluster, h]

@[simp] theorem pier_updPier (s : State) (n : Nat) (f : Pier → Pier) : (s.updPier n f).pier n = f (s.pier n) := by
  simp [State.pier, State.updPier]

theorem pier_updPier_ne (s : State) (n m : Nat) (f : Pier → Pier) (h : m ≠ n) : (s.updPier n f).pier m = s.pier m := by
  simp [State.pier, State.updPier, h]

@[simp] theorem vdev_updVdev (s : State) (n : Nat) (f : VDev → VDev) : (s.updVdev n f).vdev n = f (s.vdev n) := by
  simp [State.vdev, State.updVdev]

theorem vdev_updVdev_ne (s : State) (n m : Nat) (f : VDev → VDev) (h : m ≠ n) : (s.updVdev n f).vdev m = s.vdev m := by
  simp [State.vdev, State.updVdev, h]

/-! ## setCore: every other field stays -/

@[simp] theorem clusters_setCore (s : State) (n : Nat) (c : Core) : (s.setCore n c).clusters = s.clusters := rfl
@[simp] theorem piers_setCore (s : State) (n : Nat) (c : Core) : (s.setCore n c).piers = s.piers := rfl
@[simp] theorem vdevs_setCore (s : State) (n : Nat) (c : Core) : (s.setCore n c).vdevs = s.vdevs := rfl
@[simp] theorem mem_setCore (s : State) (n : Nat) (c : Core) : (s.setCore n c).mem = s.mem := rfl
@[simp] theorem poison_setCore (s : State) (n : Nat) (c : Core) : (s.setCore n c).poison = s.poison := rfl
@[simp] theorem upset_setCore (s : State) (n : Nat) (c : Core) : (s.setCore n c).upset = s.upset := rfl
@[simp] theorem l2_setCore (s : State) (n : Nat) (c : Core) : (s.setCore n c).l2 = s.l2 := rfl
@[simp] theorem msc_setCore (s : State) (n : Nat) (c : Core) : (s.setCore n c).msc = s.msc := rfl
@[simp] theorem phases_setCore (s : State) (n : Nat) (c : Core) : (s.setCore n c).phases = s.phases := rfl
@[simp] theorem tierOpen_setCore (s : State) (n : Nat) (c : Core) : (s.setCore n c).tierOpen = s.tierOpen := rfl
@[simp] theorem chunkOf_setCore (s : State) (n : Nat) (c : Core) : (s.setCore n c).chunkOf = s.chunkOf := rfl
@[simp] theorem extents_setCore (s : State) (n : Nat) (c : Core) : (s.setCore n c).extents = s.extents := rfl
@[simp] theorem removed_setCore (s : State) (n : Nat) (c : Core) : (s.setCore n c).removed = s.removed := rfl
@[simp] theorem pins_setCore (s : State) (n : Nat) (c : Core) : (s.setCore n c).pins = s.pins := rfl
@[simp] theorem access_setCore (s : State) (n : Nat) (c : Core) : (s.setCore n c).access = s.access := rfl
@[simp] theorem migrations_setCore (s : State) (n : Nat) (c : Core) : (s.setCore n c).migrations = s.migrations := rfl
@[simp] theorem hints_setCore (s : State) (n : Nat) (c : Core) : (s.setCore n c).hints = s.hints := rfl
@[simp] theorem takes_setCore (s : State) (n : Nat) (c : Core) : (s.setCore n c).takes = s.takes := rfl
@[simp] theorem turns_setCore (s : State) (n : Nat) (c : Core) : (s.setCore n c).turns = s.turns := rfl
@[simp] theorem slotBits_setCore (s : State) (n : Nat) (c : Core) : (s.setCore n c).slotBits = s.slotBits := rfl
@[simp] theorem launches_setCore (s : State) (n : Nat) (c : Core) : (s.setCore n c).launches = s.launches := rfl
@[simp] theorem packets_setCore (s : State) (n : Nat) (c : Core) : (s.setCore n c).packets = s.packets := rfl
@[simp] theorem gathers_setCore (s : State) (n : Nat) (c : Core) : (s.setCore n c).gathers = s.gathers := rfl
@[simp] theorem parties_setCore (s : State) (n : Nat) (c : Core) : (s.setCore n c).parties = s.parties := rfl
@[simp] theorem cancels_setCore (s : State) (n : Nat) (c : Core) : (s.setCore n c).cancels = s.cancels := rfl
@[simp] theorem truncs_setCore (s : State) (n : Nat) (c : Core) : (s.setCore n c).truncs = s.truncs := rfl
@[simp] theorem notices_setCore (s : State) (n : Nat) (c : Core) : (s.setCore n c).notices = s.notices := rfl
@[simp] theorem barMsgs_setCore (s : State) (n : Nat) (c : Core) : (s.setCore n c).barMsgs = s.barMsgs := rfl
@[simp] theorem uirqs_setCore (s : State) (n : Nat) (c : Core) : (s.setCore n c).uirqs = s.uirqs := rfl
@[simp] theorem wides_setCore (s : State) (n : Nat) (c : Core) : (s.setCore n c).wides = s.wides := rfl
@[simp] theorem waitq_setCore (s : State) (n : Nat) (c : Core) : (s.setCore n c).waitq = s.waitq := rfl
@[simp] theorem hwq_setCore (s : State) (n : Nat) (c : Core) : (s.setCore n c).hwq = s.hwq := rfl
@[simp] theorem lost_setCore (s : State) (n : Nat) (c : Core) : (s.setCore n c).lost = s.lost := rfl
@[simp] theorem remotes_setCore (s : State) (n : Nat) (c : Core) : (s.setCore n c).remotes = s.remotes := rfl
@[simp] theorem wire_setCore (s : State) (n : Nat) (c : Core) : (s.setCore n c).wire = s.wire := rfl
@[simp] theorem flash_setCore (s : State) (n : Nat) (c : Core) : (s.setCore n c).flash = s.flash := rfl
@[simp] theorem bootstat_setCore (s : State) (n : Nat) (c : Core) : (s.setCore n c).bootstat = s.bootstat := rfl
@[simp] theorem bootver_setCore (s : State) (n : Nat) (c : Core) : (s.setCore n c).bootver = s.bootver := rfl
@[simp] theorem recovery_setCore (s : State) (n : Nat) (c : Core) : (s.setCore n c).recovery = s.recovery := rfl
@[simp] theorem puf_setCore (s : State) (n : Nat) (c : Core) : (s.setCore n c).puf = s.puf := rfl
@[simp] theorem sysPc_setCore (s : State) (n : Nat) (c : Core) : (s.setCore n c).sysPc = s.sysPc := rfl
@[simp] theorem time_setCore (s : State) (n : Nat) (c : Core) : (s.setCore n c).time = s.time := rfl
@[simp] theorem stopped_setCore (s : State) (n : Nat) (c : Core) : (s.setCore n c).stopped = s.stopped := rfl
@[simp] theorem alert_setCore (s : State) (n : Nat) (c : Core) : (s.setCore n c).alert = s.alert := rfl
@[simp] theorem arrayFreq_setCore (s : State) (n : Nat) (c : Core) : (s.setCore n c).arrayFreq = s.arrayFreq := rfl
@[simp] theorem temps_setCore (s : State) (n : Nat) (c : Core) : (s.setCore n c).temps = s.temps := rfl
@[simp] theorem power_setCore (s : State) (n : Nat) (c : Core) : (s.setCore n c).power = s.power := rfl
@[simp] theorem reply_setCore (s : State) (n : Nat) (c : Core) : (s.setCore n c).reply = s.reply := rfl
@[simp] theorem cur_setCore (s : State) (n : Nat) (c : Core) : (s.setCore n c).cur = s.cur := rfl
@[simp] theorem agenda_setCore (s : State) (n : Nat) (c : Core) : (s.setCore n c).agenda = s.agenda := rfl
@[simp] theorem served_setCore (s : State) (n : Nat) (c : Core) : (s.setCore n c).served = s.served := rfl
@[simp] theorem burst_setCore (s : State) (n : Nat) (c : Core) : (s.setCore n c).burst = s.burst := rfl
@[simp] theorem issue_setCore (s : State) (n : Nat) (c : Core) : (s.setCore n c).issue = s.issue := rfl
@[simp] theorem fresh_setCore (s : State) (n : Nat) (c : Core) : (s.setCore n c).fresh = s.fresh := rfl

/-! ## updCore: every other field stays -/

@[simp] theorem clusters_updCore (s : State) (n : Nat) (f : Core → Core) : (s.updCore n f).clusters = s.clusters := rfl
@[simp] theorem piers_updCore (s : State) (n : Nat) (f : Core → Core) : (s.updCore n f).piers = s.piers := rfl
@[simp] theorem vdevs_updCore (s : State) (n : Nat) (f : Core → Core) : (s.updCore n f).vdevs = s.vdevs := rfl
@[simp] theorem mem_updCore (s : State) (n : Nat) (f : Core → Core) : (s.updCore n f).mem = s.mem := rfl
@[simp] theorem poison_updCore (s : State) (n : Nat) (f : Core → Core) : (s.updCore n f).poison = s.poison := rfl
@[simp] theorem upset_updCore (s : State) (n : Nat) (f : Core → Core) : (s.updCore n f).upset = s.upset := rfl
@[simp] theorem l2_updCore (s : State) (n : Nat) (f : Core → Core) : (s.updCore n f).l2 = s.l2 := rfl
@[simp] theorem msc_updCore (s : State) (n : Nat) (f : Core → Core) : (s.updCore n f).msc = s.msc := rfl
@[simp] theorem phases_updCore (s : State) (n : Nat) (f : Core → Core) : (s.updCore n f).phases = s.phases := rfl
@[simp] theorem tierOpen_updCore (s : State) (n : Nat) (f : Core → Core) : (s.updCore n f).tierOpen = s.tierOpen := rfl
@[simp] theorem chunkOf_updCore (s : State) (n : Nat) (f : Core → Core) : (s.updCore n f).chunkOf = s.chunkOf := rfl
@[simp] theorem extents_updCore (s : State) (n : Nat) (f : Core → Core) : (s.updCore n f).extents = s.extents := rfl
@[simp] theorem removed_updCore (s : State) (n : Nat) (f : Core → Core) : (s.updCore n f).removed = s.removed := rfl
@[simp] theorem pins_updCore (s : State) (n : Nat) (f : Core → Core) : (s.updCore n f).pins = s.pins := rfl
@[simp] theorem access_updCore (s : State) (n : Nat) (f : Core → Core) : (s.updCore n f).access = s.access := rfl
@[simp] theorem migrations_updCore (s : State) (n : Nat) (f : Core → Core) : (s.updCore n f).migrations = s.migrations := rfl
@[simp] theorem hints_updCore (s : State) (n : Nat) (f : Core → Core) : (s.updCore n f).hints = s.hints := rfl
@[simp] theorem takes_updCore (s : State) (n : Nat) (f : Core → Core) : (s.updCore n f).takes = s.takes := rfl
@[simp] theorem turns_updCore (s : State) (n : Nat) (f : Core → Core) : (s.updCore n f).turns = s.turns := rfl
@[simp] theorem slotBits_updCore (s : State) (n : Nat) (f : Core → Core) : (s.updCore n f).slotBits = s.slotBits := rfl
@[simp] theorem launches_updCore (s : State) (n : Nat) (f : Core → Core) : (s.updCore n f).launches = s.launches := rfl
@[simp] theorem packets_updCore (s : State) (n : Nat) (f : Core → Core) : (s.updCore n f).packets = s.packets := rfl
@[simp] theorem gathers_updCore (s : State) (n : Nat) (f : Core → Core) : (s.updCore n f).gathers = s.gathers := rfl
@[simp] theorem parties_updCore (s : State) (n : Nat) (f : Core → Core) : (s.updCore n f).parties = s.parties := rfl
@[simp] theorem cancels_updCore (s : State) (n : Nat) (f : Core → Core) : (s.updCore n f).cancels = s.cancels := rfl
@[simp] theorem truncs_updCore (s : State) (n : Nat) (f : Core → Core) : (s.updCore n f).truncs = s.truncs := rfl
@[simp] theorem notices_updCore (s : State) (n : Nat) (f : Core → Core) : (s.updCore n f).notices = s.notices := rfl
@[simp] theorem barMsgs_updCore (s : State) (n : Nat) (f : Core → Core) : (s.updCore n f).barMsgs = s.barMsgs := rfl
@[simp] theorem uirqs_updCore (s : State) (n : Nat) (f : Core → Core) : (s.updCore n f).uirqs = s.uirqs := rfl
@[simp] theorem wides_updCore (s : State) (n : Nat) (f : Core → Core) : (s.updCore n f).wides = s.wides := rfl
@[simp] theorem waitq_updCore (s : State) (n : Nat) (f : Core → Core) : (s.updCore n f).waitq = s.waitq := rfl
@[simp] theorem hwq_updCore (s : State) (n : Nat) (f : Core → Core) : (s.updCore n f).hwq = s.hwq := rfl
@[simp] theorem lost_updCore (s : State) (n : Nat) (f : Core → Core) : (s.updCore n f).lost = s.lost := rfl
@[simp] theorem remotes_updCore (s : State) (n : Nat) (f : Core → Core) : (s.updCore n f).remotes = s.remotes := rfl
@[simp] theorem wire_updCore (s : State) (n : Nat) (f : Core → Core) : (s.updCore n f).wire = s.wire := rfl
@[simp] theorem flash_updCore (s : State) (n : Nat) (f : Core → Core) : (s.updCore n f).flash = s.flash := rfl
@[simp] theorem bootstat_updCore (s : State) (n : Nat) (f : Core → Core) : (s.updCore n f).bootstat = s.bootstat := rfl
@[simp] theorem bootver_updCore (s : State) (n : Nat) (f : Core → Core) : (s.updCore n f).bootver = s.bootver := rfl
@[simp] theorem recovery_updCore (s : State) (n : Nat) (f : Core → Core) : (s.updCore n f).recovery = s.recovery := rfl
@[simp] theorem puf_updCore (s : State) (n : Nat) (f : Core → Core) : (s.updCore n f).puf = s.puf := rfl
@[simp] theorem sysPc_updCore (s : State) (n : Nat) (f : Core → Core) : (s.updCore n f).sysPc = s.sysPc := rfl
@[simp] theorem time_updCore (s : State) (n : Nat) (f : Core → Core) : (s.updCore n f).time = s.time := rfl
@[simp] theorem stopped_updCore (s : State) (n : Nat) (f : Core → Core) : (s.updCore n f).stopped = s.stopped := rfl
@[simp] theorem alert_updCore (s : State) (n : Nat) (f : Core → Core) : (s.updCore n f).alert = s.alert := rfl
@[simp] theorem arrayFreq_updCore (s : State) (n : Nat) (f : Core → Core) : (s.updCore n f).arrayFreq = s.arrayFreq := rfl
@[simp] theorem temps_updCore (s : State) (n : Nat) (f : Core → Core) : (s.updCore n f).temps = s.temps := rfl
@[simp] theorem power_updCore (s : State) (n : Nat) (f : Core → Core) : (s.updCore n f).power = s.power := rfl
@[simp] theorem reply_updCore (s : State) (n : Nat) (f : Core → Core) : (s.updCore n f).reply = s.reply := rfl
@[simp] theorem cur_updCore (s : State) (n : Nat) (f : Core → Core) : (s.updCore n f).cur = s.cur := rfl
@[simp] theorem agenda_updCore (s : State) (n : Nat) (f : Core → Core) : (s.updCore n f).agenda = s.agenda := rfl
@[simp] theorem served_updCore (s : State) (n : Nat) (f : Core → Core) : (s.updCore n f).served = s.served := rfl
@[simp] theorem burst_updCore (s : State) (n : Nat) (f : Core → Core) : (s.updCore n f).burst = s.burst := rfl
@[simp] theorem issue_updCore (s : State) (n : Nat) (f : Core → Core) : (s.updCore n f).issue = s.issue := rfl
@[simp] theorem fresh_updCore (s : State) (n : Nat) (f : Core → Core) : (s.updCore n f).fresh = s.fresh := rfl

/-! ## setCtx: every other field stays -/

@[simp] theorem clusters_setCtx (s : State) (n j : Nat) (x : Ctx) : (s.setCtx n j x).clusters = s.clusters := rfl
@[simp] theorem piers_setCtx (s : State) (n j : Nat) (x : Ctx) : (s.setCtx n j x).piers = s.piers := rfl
@[simp] theorem vdevs_setCtx (s : State) (n j : Nat) (x : Ctx) : (s.setCtx n j x).vdevs = s.vdevs := rfl
@[simp] theorem mem_setCtx (s : State) (n j : Nat) (x : Ctx) : (s.setCtx n j x).mem = s.mem := rfl
@[simp] theorem poison_setCtx (s : State) (n j : Nat) (x : Ctx) : (s.setCtx n j x).poison = s.poison := rfl
@[simp] theorem upset_setCtx (s : State) (n j : Nat) (x : Ctx) : (s.setCtx n j x).upset = s.upset := rfl
@[simp] theorem l2_setCtx (s : State) (n j : Nat) (x : Ctx) : (s.setCtx n j x).l2 = s.l2 := rfl
@[simp] theorem msc_setCtx (s : State) (n j : Nat) (x : Ctx) : (s.setCtx n j x).msc = s.msc := rfl
@[simp] theorem phases_setCtx (s : State) (n j : Nat) (x : Ctx) : (s.setCtx n j x).phases = s.phases := rfl
@[simp] theorem tierOpen_setCtx (s : State) (n j : Nat) (x : Ctx) : (s.setCtx n j x).tierOpen = s.tierOpen := rfl
@[simp] theorem chunkOf_setCtx (s : State) (n j : Nat) (x : Ctx) : (s.setCtx n j x).chunkOf = s.chunkOf := rfl
@[simp] theorem extents_setCtx (s : State) (n j : Nat) (x : Ctx) : (s.setCtx n j x).extents = s.extents := rfl
@[simp] theorem removed_setCtx (s : State) (n j : Nat) (x : Ctx) : (s.setCtx n j x).removed = s.removed := rfl
@[simp] theorem pins_setCtx (s : State) (n j : Nat) (x : Ctx) : (s.setCtx n j x).pins = s.pins := rfl
@[simp] theorem access_setCtx (s : State) (n j : Nat) (x : Ctx) : (s.setCtx n j x).access = s.access := rfl
@[simp] theorem migrations_setCtx (s : State) (n j : Nat) (x : Ctx) : (s.setCtx n j x).migrations = s.migrations := rfl
@[simp] theorem hints_setCtx (s : State) (n j : Nat) (x : Ctx) : (s.setCtx n j x).hints = s.hints := rfl
@[simp] theorem takes_setCtx (s : State) (n j : Nat) (x : Ctx) : (s.setCtx n j x).takes = s.takes := rfl
@[simp] theorem turns_setCtx (s : State) (n j : Nat) (x : Ctx) : (s.setCtx n j x).turns = s.turns := rfl
@[simp] theorem slotBits_setCtx (s : State) (n j : Nat) (x : Ctx) : (s.setCtx n j x).slotBits = s.slotBits := rfl
@[simp] theorem launches_setCtx (s : State) (n j : Nat) (x : Ctx) : (s.setCtx n j x).launches = s.launches := rfl
@[simp] theorem packets_setCtx (s : State) (n j : Nat) (x : Ctx) : (s.setCtx n j x).packets = s.packets := rfl
@[simp] theorem gathers_setCtx (s : State) (n j : Nat) (x : Ctx) : (s.setCtx n j x).gathers = s.gathers := rfl
@[simp] theorem parties_setCtx (s : State) (n j : Nat) (x : Ctx) : (s.setCtx n j x).parties = s.parties := rfl
@[simp] theorem cancels_setCtx (s : State) (n j : Nat) (x : Ctx) : (s.setCtx n j x).cancels = s.cancels := rfl
@[simp] theorem truncs_setCtx (s : State) (n j : Nat) (x : Ctx) : (s.setCtx n j x).truncs = s.truncs := rfl
@[simp] theorem notices_setCtx (s : State) (n j : Nat) (x : Ctx) : (s.setCtx n j x).notices = s.notices := rfl
@[simp] theorem barMsgs_setCtx (s : State) (n j : Nat) (x : Ctx) : (s.setCtx n j x).barMsgs = s.barMsgs := rfl
@[simp] theorem uirqs_setCtx (s : State) (n j : Nat) (x : Ctx) : (s.setCtx n j x).uirqs = s.uirqs := rfl
@[simp] theorem wides_setCtx (s : State) (n j : Nat) (x : Ctx) : (s.setCtx n j x).wides = s.wides := rfl
@[simp] theorem waitq_setCtx (s : State) (n j : Nat) (x : Ctx) : (s.setCtx n j x).waitq = s.waitq := rfl
@[simp] theorem hwq_setCtx (s : State) (n j : Nat) (x : Ctx) : (s.setCtx n j x).hwq = s.hwq := rfl
@[simp] theorem lost_setCtx (s : State) (n j : Nat) (x : Ctx) : (s.setCtx n j x).lost = s.lost := rfl
@[simp] theorem remotes_setCtx (s : State) (n j : Nat) (x : Ctx) : (s.setCtx n j x).remotes = s.remotes := rfl
@[simp] theorem wire_setCtx (s : State) (n j : Nat) (x : Ctx) : (s.setCtx n j x).wire = s.wire := rfl
@[simp] theorem flash_setCtx (s : State) (n j : Nat) (x : Ctx) : (s.setCtx n j x).flash = s.flash := rfl
@[simp] theorem bootstat_setCtx (s : State) (n j : Nat) (x : Ctx) : (s.setCtx n j x).bootstat = s.bootstat := rfl
@[simp] theorem bootver_setCtx (s : State) (n j : Nat) (x : Ctx) : (s.setCtx n j x).bootver = s.bootver := rfl
@[simp] theorem recovery_setCtx (s : State) (n j : Nat) (x : Ctx) : (s.setCtx n j x).recovery = s.recovery := rfl
@[simp] theorem puf_setCtx (s : State) (n j : Nat) (x : Ctx) : (s.setCtx n j x).puf = s.puf := rfl
@[simp] theorem sysPc_setCtx (s : State) (n j : Nat) (x : Ctx) : (s.setCtx n j x).sysPc = s.sysPc := rfl
@[simp] theorem time_setCtx (s : State) (n j : Nat) (x : Ctx) : (s.setCtx n j x).time = s.time := rfl
@[simp] theorem stopped_setCtx (s : State) (n j : Nat) (x : Ctx) : (s.setCtx n j x).stopped = s.stopped := rfl
@[simp] theorem alert_setCtx (s : State) (n j : Nat) (x : Ctx) : (s.setCtx n j x).alert = s.alert := rfl
@[simp] theorem arrayFreq_setCtx (s : State) (n j : Nat) (x : Ctx) : (s.setCtx n j x).arrayFreq = s.arrayFreq := rfl
@[simp] theorem temps_setCtx (s : State) (n j : Nat) (x : Ctx) : (s.setCtx n j x).temps = s.temps := rfl
@[simp] theorem power_setCtx (s : State) (n j : Nat) (x : Ctx) : (s.setCtx n j x).power = s.power := rfl
@[simp] theorem reply_setCtx (s : State) (n j : Nat) (x : Ctx) : (s.setCtx n j x).reply = s.reply := rfl
@[simp] theorem cur_setCtx (s : State) (n j : Nat) (x : Ctx) : (s.setCtx n j x).cur = s.cur := rfl
@[simp] theorem agenda_setCtx (s : State) (n j : Nat) (x : Ctx) : (s.setCtx n j x).agenda = s.agenda := rfl
@[simp] theorem served_setCtx (s : State) (n j : Nat) (x : Ctx) : (s.setCtx n j x).served = s.served := rfl
@[simp] theorem burst_setCtx (s : State) (n j : Nat) (x : Ctx) : (s.setCtx n j x).burst = s.burst := rfl
@[simp] theorem issue_setCtx (s : State) (n j : Nat) (x : Ctx) : (s.setCtx n j x).issue = s.issue := rfl
@[simp] theorem fresh_setCtx (s : State) (n j : Nat) (x : Ctx) : (s.setCtx n j x).fresh = s.fresh := rfl

/-! ## updCtx: every other field stays -/

@[simp] theorem clusters_updCtx (s : State) (n j : Nat) (f : Ctx → Ctx) : (s.updCtx n j f).clusters = s.clusters := rfl
@[simp] theorem piers_updCtx (s : State) (n j : Nat) (f : Ctx → Ctx) : (s.updCtx n j f).piers = s.piers := rfl
@[simp] theorem vdevs_updCtx (s : State) (n j : Nat) (f : Ctx → Ctx) : (s.updCtx n j f).vdevs = s.vdevs := rfl
@[simp] theorem mem_updCtx (s : State) (n j : Nat) (f : Ctx → Ctx) : (s.updCtx n j f).mem = s.mem := rfl
@[simp] theorem poison_updCtx (s : State) (n j : Nat) (f : Ctx → Ctx) : (s.updCtx n j f).poison = s.poison := rfl
@[simp] theorem upset_updCtx (s : State) (n j : Nat) (f : Ctx → Ctx) : (s.updCtx n j f).upset = s.upset := rfl
@[simp] theorem l2_updCtx (s : State) (n j : Nat) (f : Ctx → Ctx) : (s.updCtx n j f).l2 = s.l2 := rfl
@[simp] theorem msc_updCtx (s : State) (n j : Nat) (f : Ctx → Ctx) : (s.updCtx n j f).msc = s.msc := rfl
@[simp] theorem phases_updCtx (s : State) (n j : Nat) (f : Ctx → Ctx) : (s.updCtx n j f).phases = s.phases := rfl
@[simp] theorem tierOpen_updCtx (s : State) (n j : Nat) (f : Ctx → Ctx) : (s.updCtx n j f).tierOpen = s.tierOpen := rfl
@[simp] theorem chunkOf_updCtx (s : State) (n j : Nat) (f : Ctx → Ctx) : (s.updCtx n j f).chunkOf = s.chunkOf := rfl
@[simp] theorem extents_updCtx (s : State) (n j : Nat) (f : Ctx → Ctx) : (s.updCtx n j f).extents = s.extents := rfl
@[simp] theorem removed_updCtx (s : State) (n j : Nat) (f : Ctx → Ctx) : (s.updCtx n j f).removed = s.removed := rfl
@[simp] theorem pins_updCtx (s : State) (n j : Nat) (f : Ctx → Ctx) : (s.updCtx n j f).pins = s.pins := rfl
@[simp] theorem access_updCtx (s : State) (n j : Nat) (f : Ctx → Ctx) : (s.updCtx n j f).access = s.access := rfl
@[simp] theorem migrations_updCtx (s : State) (n j : Nat) (f : Ctx → Ctx) : (s.updCtx n j f).migrations = s.migrations := rfl
@[simp] theorem hints_updCtx (s : State) (n j : Nat) (f : Ctx → Ctx) : (s.updCtx n j f).hints = s.hints := rfl
@[simp] theorem takes_updCtx (s : State) (n j : Nat) (f : Ctx → Ctx) : (s.updCtx n j f).takes = s.takes := rfl
@[simp] theorem turns_updCtx (s : State) (n j : Nat) (f : Ctx → Ctx) : (s.updCtx n j f).turns = s.turns := rfl
@[simp] theorem slotBits_updCtx (s : State) (n j : Nat) (f : Ctx → Ctx) : (s.updCtx n j f).slotBits = s.slotBits := rfl
@[simp] theorem launches_updCtx (s : State) (n j : Nat) (f : Ctx → Ctx) : (s.updCtx n j f).launches = s.launches := rfl
@[simp] theorem packets_updCtx (s : State) (n j : Nat) (f : Ctx → Ctx) : (s.updCtx n j f).packets = s.packets := rfl
@[simp] theorem gathers_updCtx (s : State) (n j : Nat) (f : Ctx → Ctx) : (s.updCtx n j f).gathers = s.gathers := rfl
@[simp] theorem parties_updCtx (s : State) (n j : Nat) (f : Ctx → Ctx) : (s.updCtx n j f).parties = s.parties := rfl
@[simp] theorem cancels_updCtx (s : State) (n j : Nat) (f : Ctx → Ctx) : (s.updCtx n j f).cancels = s.cancels := rfl
@[simp] theorem truncs_updCtx (s : State) (n j : Nat) (f : Ctx → Ctx) : (s.updCtx n j f).truncs = s.truncs := rfl
@[simp] theorem notices_updCtx (s : State) (n j : Nat) (f : Ctx → Ctx) : (s.updCtx n j f).notices = s.notices := rfl
@[simp] theorem barMsgs_updCtx (s : State) (n j : Nat) (f : Ctx → Ctx) : (s.updCtx n j f).barMsgs = s.barMsgs := rfl
@[simp] theorem uirqs_updCtx (s : State) (n j : Nat) (f : Ctx → Ctx) : (s.updCtx n j f).uirqs = s.uirqs := rfl
@[simp] theorem wides_updCtx (s : State) (n j : Nat) (f : Ctx → Ctx) : (s.updCtx n j f).wides = s.wides := rfl
@[simp] theorem waitq_updCtx (s : State) (n j : Nat) (f : Ctx → Ctx) : (s.updCtx n j f).waitq = s.waitq := rfl
@[simp] theorem hwq_updCtx (s : State) (n j : Nat) (f : Ctx → Ctx) : (s.updCtx n j f).hwq = s.hwq := rfl
@[simp] theorem lost_updCtx (s : State) (n j : Nat) (f : Ctx → Ctx) : (s.updCtx n j f).lost = s.lost := rfl
@[simp] theorem remotes_updCtx (s : State) (n j : Nat) (f : Ctx → Ctx) : (s.updCtx n j f).remotes = s.remotes := rfl
@[simp] theorem wire_updCtx (s : State) (n j : Nat) (f : Ctx → Ctx) : (s.updCtx n j f).wire = s.wire := rfl
@[simp] theorem flash_updCtx (s : State) (n j : Nat) (f : Ctx → Ctx) : (s.updCtx n j f).flash = s.flash := rfl
@[simp] theorem bootstat_updCtx (s : State) (n j : Nat) (f : Ctx → Ctx) : (s.updCtx n j f).bootstat = s.bootstat := rfl
@[simp] theorem bootver_updCtx (s : State) (n j : Nat) (f : Ctx → Ctx) : (s.updCtx n j f).bootver = s.bootver := rfl
@[simp] theorem recovery_updCtx (s : State) (n j : Nat) (f : Ctx → Ctx) : (s.updCtx n j f).recovery = s.recovery := rfl
@[simp] theorem puf_updCtx (s : State) (n j : Nat) (f : Ctx → Ctx) : (s.updCtx n j f).puf = s.puf := rfl
@[simp] theorem sysPc_updCtx (s : State) (n j : Nat) (f : Ctx → Ctx) : (s.updCtx n j f).sysPc = s.sysPc := rfl
@[simp] theorem time_updCtx (s : State) (n j : Nat) (f : Ctx → Ctx) : (s.updCtx n j f).time = s.time := rfl
@[simp] theorem stopped_updCtx (s : State) (n j : Nat) (f : Ctx → Ctx) : (s.updCtx n j f).stopped = s.stopped := rfl
@[simp] theorem alert_updCtx (s : State) (n j : Nat) (f : Ctx → Ctx) : (s.updCtx n j f).alert = s.alert := rfl
@[simp] theorem arrayFreq_updCtx (s : State) (n j : Nat) (f : Ctx → Ctx) : (s.updCtx n j f).arrayFreq = s.arrayFreq := rfl
@[simp] theorem temps_updCtx (s : State) (n j : Nat) (f : Ctx → Ctx) : (s.updCtx n j f).temps = s.temps := rfl
@[simp] theorem power_updCtx (s : State) (n j : Nat) (f : Ctx → Ctx) : (s.updCtx n j f).power = s.power := rfl
@[simp] theorem reply_updCtx (s : State) (n j : Nat) (f : Ctx → Ctx) : (s.updCtx n j f).reply = s.reply := rfl
@[simp] theorem cur_updCtx (s : State) (n j : Nat) (f : Ctx → Ctx) : (s.updCtx n j f).cur = s.cur := rfl
@[simp] theorem agenda_updCtx (s : State) (n j : Nat) (f : Ctx → Ctx) : (s.updCtx n j f).agenda = s.agenda := rfl
@[simp] theorem served_updCtx (s : State) (n j : Nat) (f : Ctx → Ctx) : (s.updCtx n j f).served = s.served := rfl
@[simp] theorem burst_updCtx (s : State) (n j : Nat) (f : Ctx → Ctx) : (s.updCtx n j f).burst = s.burst := rfl
@[simp] theorem issue_updCtx (s : State) (n j : Nat) (f : Ctx → Ctx) : (s.updCtx n j f).issue = s.issue := rfl
@[simp] theorem fresh_updCtx (s : State) (n j : Nat) (f : Ctx → Ctx) : (s.updCtx n j f).fresh = s.fresh := rfl

/-! ## updMe: every other field stays -/

@[simp] theorem clusters_updMe (s : State) (f : Ctx → Ctx) : (s.updMe f).clusters = s.clusters := rfl
@[simp] theorem piers_updMe (s : State) (f : Ctx → Ctx) : (s.updMe f).piers = s.piers := rfl
@[simp] theorem vdevs_updMe (s : State) (f : Ctx → Ctx) : (s.updMe f).vdevs = s.vdevs := rfl
@[simp] theorem mem_updMe (s : State) (f : Ctx → Ctx) : (s.updMe f).mem = s.mem := rfl
@[simp] theorem poison_updMe (s : State) (f : Ctx → Ctx) : (s.updMe f).poison = s.poison := rfl
@[simp] theorem upset_updMe (s : State) (f : Ctx → Ctx) : (s.updMe f).upset = s.upset := rfl
@[simp] theorem l2_updMe (s : State) (f : Ctx → Ctx) : (s.updMe f).l2 = s.l2 := rfl
@[simp] theorem msc_updMe (s : State) (f : Ctx → Ctx) : (s.updMe f).msc = s.msc := rfl
@[simp] theorem phases_updMe (s : State) (f : Ctx → Ctx) : (s.updMe f).phases = s.phases := rfl
@[simp] theorem tierOpen_updMe (s : State) (f : Ctx → Ctx) : (s.updMe f).tierOpen = s.tierOpen := rfl
@[simp] theorem chunkOf_updMe (s : State) (f : Ctx → Ctx) : (s.updMe f).chunkOf = s.chunkOf := rfl
@[simp] theorem extents_updMe (s : State) (f : Ctx → Ctx) : (s.updMe f).extents = s.extents := rfl
@[simp] theorem removed_updMe (s : State) (f : Ctx → Ctx) : (s.updMe f).removed = s.removed := rfl
@[simp] theorem pins_updMe (s : State) (f : Ctx → Ctx) : (s.updMe f).pins = s.pins := rfl
@[simp] theorem access_updMe (s : State) (f : Ctx → Ctx) : (s.updMe f).access = s.access := rfl
@[simp] theorem migrations_updMe (s : State) (f : Ctx → Ctx) : (s.updMe f).migrations = s.migrations := rfl
@[simp] theorem hints_updMe (s : State) (f : Ctx → Ctx) : (s.updMe f).hints = s.hints := rfl
@[simp] theorem takes_updMe (s : State) (f : Ctx → Ctx) : (s.updMe f).takes = s.takes := rfl
@[simp] theorem turns_updMe (s : State) (f : Ctx → Ctx) : (s.updMe f).turns = s.turns := rfl
@[simp] theorem slotBits_updMe (s : State) (f : Ctx → Ctx) : (s.updMe f).slotBits = s.slotBits := rfl
@[simp] theorem launches_updMe (s : State) (f : Ctx → Ctx) : (s.updMe f).launches = s.launches := rfl
@[simp] theorem packets_updMe (s : State) (f : Ctx → Ctx) : (s.updMe f).packets = s.packets := rfl
@[simp] theorem gathers_updMe (s : State) (f : Ctx → Ctx) : (s.updMe f).gathers = s.gathers := rfl
@[simp] theorem parties_updMe (s : State) (f : Ctx → Ctx) : (s.updMe f).parties = s.parties := rfl
@[simp] theorem cancels_updMe (s : State) (f : Ctx → Ctx) : (s.updMe f).cancels = s.cancels := rfl
@[simp] theorem truncs_updMe (s : State) (f : Ctx → Ctx) : (s.updMe f).truncs = s.truncs := rfl
@[simp] theorem notices_updMe (s : State) (f : Ctx → Ctx) : (s.updMe f).notices = s.notices := rfl
@[simp] theorem barMsgs_updMe (s : State) (f : Ctx → Ctx) : (s.updMe f).barMsgs = s.barMsgs := rfl
@[simp] theorem uirqs_updMe (s : State) (f : Ctx → Ctx) : (s.updMe f).uirqs = s.uirqs := rfl
@[simp] theorem wides_updMe (s : State) (f : Ctx → Ctx) : (s.updMe f).wides = s.wides := rfl
@[simp] theorem waitq_updMe (s : State) (f : Ctx → Ctx) : (s.updMe f).waitq = s.waitq := rfl
@[simp] theorem hwq_updMe (s : State) (f : Ctx → Ctx) : (s.updMe f).hwq = s.hwq := rfl
@[simp] theorem lost_updMe (s : State) (f : Ctx → Ctx) : (s.updMe f).lost = s.lost := rfl
@[simp] theorem remotes_updMe (s : State) (f : Ctx → Ctx) : (s.updMe f).remotes = s.remotes := rfl
@[simp] theorem wire_updMe (s : State) (f : Ctx → Ctx) : (s.updMe f).wire = s.wire := rfl
@[simp] theorem flash_updMe (s : State) (f : Ctx → Ctx) : (s.updMe f).flash = s.flash := rfl
@[simp] theorem bootstat_updMe (s : State) (f : Ctx → Ctx) : (s.updMe f).bootstat = s.bootstat := rfl
@[simp] theorem bootver_updMe (s : State) (f : Ctx → Ctx) : (s.updMe f).bootver = s.bootver := rfl
@[simp] theorem recovery_updMe (s : State) (f : Ctx → Ctx) : (s.updMe f).recovery = s.recovery := rfl
@[simp] theorem puf_updMe (s : State) (f : Ctx → Ctx) : (s.updMe f).puf = s.puf := rfl
@[simp] theorem sysPc_updMe (s : State) (f : Ctx → Ctx) : (s.updMe f).sysPc = s.sysPc := rfl
@[simp] theorem time_updMe (s : State) (f : Ctx → Ctx) : (s.updMe f).time = s.time := rfl
@[simp] theorem stopped_updMe (s : State) (f : Ctx → Ctx) : (s.updMe f).stopped = s.stopped := rfl
@[simp] theorem alert_updMe (s : State) (f : Ctx → Ctx) : (s.updMe f).alert = s.alert := rfl
@[simp] theorem arrayFreq_updMe (s : State) (f : Ctx → Ctx) : (s.updMe f).arrayFreq = s.arrayFreq := rfl
@[simp] theorem temps_updMe (s : State) (f : Ctx → Ctx) : (s.updMe f).temps = s.temps := rfl
@[simp] theorem power_updMe (s : State) (f : Ctx → Ctx) : (s.updMe f).power = s.power := rfl
@[simp] theorem reply_updMe (s : State) (f : Ctx → Ctx) : (s.updMe f).reply = s.reply := rfl
@[simp] theorem cur_updMe (s : State) (f : Ctx → Ctx) : (s.updMe f).cur = s.cur := rfl
@[simp] theorem agenda_updMe (s : State) (f : Ctx → Ctx) : (s.updMe f).agenda = s.agenda := rfl
@[simp] theorem served_updMe (s : State) (f : Ctx → Ctx) : (s.updMe f).served = s.served := rfl
@[simp] theorem burst_updMe (s : State) (f : Ctx → Ctx) : (s.updMe f).burst = s.burst := rfl
@[simp] theorem issue_updMe (s : State) (f : Ctx → Ctx) : (s.updMe f).issue = s.issue := rfl
@[simp] theorem fresh_updMe (s : State) (f : Ctx → Ctx) : (s.updMe f).fresh = s.fresh := rfl

/-! ## updMyCore: every other field stays -/

@[simp] theorem clusters_updMyCore (s : State) (f : Core → Core) : (s.updMyCore f).clusters = s.clusters := rfl
@[simp] theorem piers_updMyCore (s : State) (f : Core → Core) : (s.updMyCore f).piers = s.piers := rfl
@[simp] theorem vdevs_updMyCore (s : State) (f : Core → Core) : (s.updMyCore f).vdevs = s.vdevs := rfl
@[simp] theorem mem_updMyCore (s : State) (f : Core → Core) : (s.updMyCore f).mem = s.mem := rfl
@[simp] theorem poison_updMyCore (s : State) (f : Core → Core) : (s.updMyCore f).poison = s.poison := rfl
@[simp] theorem upset_updMyCore (s : State) (f : Core → Core) : (s.updMyCore f).upset = s.upset := rfl
@[simp] theorem l2_updMyCore (s : State) (f : Core → Core) : (s.updMyCore f).l2 = s.l2 := rfl
@[simp] theorem msc_updMyCore (s : State) (f : Core → Core) : (s.updMyCore f).msc = s.msc := rfl
@[simp] theorem phases_updMyCore (s : State) (f : Core → Core) : (s.updMyCore f).phases = s.phases := rfl
@[simp] theorem tierOpen_updMyCore (s : State) (f : Core → Core) : (s.updMyCore f).tierOpen = s.tierOpen := rfl
@[simp] theorem chunkOf_updMyCore (s : State) (f : Core → Core) : (s.updMyCore f).chunkOf = s.chunkOf := rfl
@[simp] theorem extents_updMyCore (s : State) (f : Core → Core) : (s.updMyCore f).extents = s.extents := rfl
@[simp] theorem removed_updMyCore (s : State) (f : Core → Core) : (s.updMyCore f).removed = s.removed := rfl
@[simp] theorem pins_updMyCore (s : State) (f : Core → Core) : (s.updMyCore f).pins = s.pins := rfl
@[simp] theorem access_updMyCore (s : State) (f : Core → Core) : (s.updMyCore f).access = s.access := rfl
@[simp] theorem migrations_updMyCore (s : State) (f : Core → Core) : (s.updMyCore f).migrations = s.migrations := rfl
@[simp] theorem hints_updMyCore (s : State) (f : Core → Core) : (s.updMyCore f).hints = s.hints := rfl
@[simp] theorem takes_updMyCore (s : State) (f : Core → Core) : (s.updMyCore f).takes = s.takes := rfl
@[simp] theorem turns_updMyCore (s : State) (f : Core → Core) : (s.updMyCore f).turns = s.turns := rfl
@[simp] theorem slotBits_updMyCore (s : State) (f : Core → Core) : (s.updMyCore f).slotBits = s.slotBits := rfl
@[simp] theorem launches_updMyCore (s : State) (f : Core → Core) : (s.updMyCore f).launches = s.launches := rfl
@[simp] theorem packets_updMyCore (s : State) (f : Core → Core) : (s.updMyCore f).packets = s.packets := rfl
@[simp] theorem gathers_updMyCore (s : State) (f : Core → Core) : (s.updMyCore f).gathers = s.gathers := rfl
@[simp] theorem parties_updMyCore (s : State) (f : Core → Core) : (s.updMyCore f).parties = s.parties := rfl
@[simp] theorem cancels_updMyCore (s : State) (f : Core → Core) : (s.updMyCore f).cancels = s.cancels := rfl
@[simp] theorem truncs_updMyCore (s : State) (f : Core → Core) : (s.updMyCore f).truncs = s.truncs := rfl
@[simp] theorem notices_updMyCore (s : State) (f : Core → Core) : (s.updMyCore f).notices = s.notices := rfl
@[simp] theorem barMsgs_updMyCore (s : State) (f : Core → Core) : (s.updMyCore f).barMsgs = s.barMsgs := rfl
@[simp] theorem uirqs_updMyCore (s : State) (f : Core → Core) : (s.updMyCore f).uirqs = s.uirqs := rfl
@[simp] theorem wides_updMyCore (s : State) (f : Core → Core) : (s.updMyCore f).wides = s.wides := rfl
@[simp] theorem waitq_updMyCore (s : State) (f : Core → Core) : (s.updMyCore f).waitq = s.waitq := rfl
@[simp] theorem hwq_updMyCore (s : State) (f : Core → Core) : (s.updMyCore f).hwq = s.hwq := rfl
@[simp] theorem lost_updMyCore (s : State) (f : Core → Core) : (s.updMyCore f).lost = s.lost := rfl
@[simp] theorem remotes_updMyCore (s : State) (f : Core → Core) : (s.updMyCore f).remotes = s.remotes := rfl
@[simp] theorem wire_updMyCore (s : State) (f : Core → Core) : (s.updMyCore f).wire = s.wire := rfl
@[simp] theorem flash_updMyCore (s : State) (f : Core → Core) : (s.updMyCore f).flash = s.flash := rfl
@[simp] theorem bootstat_updMyCore (s : State) (f : Core → Core) : (s.updMyCore f).bootstat = s.bootstat := rfl
@[simp] theorem bootver_updMyCore (s : State) (f : Core → Core) : (s.updMyCore f).bootver = s.bootver := rfl
@[simp] theorem recovery_updMyCore (s : State) (f : Core → Core) : (s.updMyCore f).recovery = s.recovery := rfl
@[simp] theorem puf_updMyCore (s : State) (f : Core → Core) : (s.updMyCore f).puf = s.puf := rfl
@[simp] theorem sysPc_updMyCore (s : State) (f : Core → Core) : (s.updMyCore f).sysPc = s.sysPc := rfl
@[simp] theorem time_updMyCore (s : State) (f : Core → Core) : (s.updMyCore f).time = s.time := rfl
@[simp] theorem stopped_updMyCore (s : State) (f : Core → Core) : (s.updMyCore f).stopped = s.stopped := rfl
@[simp] theorem alert_updMyCore (s : State) (f : Core → Core) : (s.updMyCore f).alert = s.alert := rfl
@[simp] theorem arrayFreq_updMyCore (s : State) (f : Core → Core) : (s.updMyCore f).arrayFreq = s.arrayFreq := rfl
@[simp] theorem temps_updMyCore (s : State) (f : Core → Core) : (s.updMyCore f).temps = s.temps := rfl
@[simp] theorem power_updMyCore (s : State) (f : Core → Core) : (s.updMyCore f).power = s.power := rfl
@[simp] theorem reply_updMyCore (s : State) (f : Core → Core) : (s.updMyCore f).reply = s.reply := rfl
@[simp] theorem cur_updMyCore (s : State) (f : Core → Core) : (s.updMyCore f).cur = s.cur := rfl
@[simp] theorem agenda_updMyCore (s : State) (f : Core → Core) : (s.updMyCore f).agenda = s.agenda := rfl
@[simp] theorem served_updMyCore (s : State) (f : Core → Core) : (s.updMyCore f).served = s.served := rfl
@[simp] theorem burst_updMyCore (s : State) (f : Core → Core) : (s.updMyCore f).burst = s.burst := rfl
@[simp] theorem issue_updMyCore (s : State) (f : Core → Core) : (s.updMyCore f).issue = s.issue := rfl
@[simp] theorem fresh_updMyCore (s : State) (f : Core → Core) : (s.updMyCore f).fresh = s.fresh := rfl

/-! ## updCluster: every other field stays -/

@[simp] theorem cores_updCluster (s : State) (n : Nat) (f : Cluster → Cluster) : (s.updCluster n f).cores = s.cores := rfl
@[simp] theorem piers_updCluster (s : State) (n : Nat) (f : Cluster → Cluster) : (s.updCluster n f).piers = s.piers := rfl
@[simp] theorem vdevs_updCluster (s : State) (n : Nat) (f : Cluster → Cluster) : (s.updCluster n f).vdevs = s.vdevs := rfl
@[simp] theorem mem_updCluster (s : State) (n : Nat) (f : Cluster → Cluster) : (s.updCluster n f).mem = s.mem := rfl
@[simp] theorem poison_updCluster (s : State) (n : Nat) (f : Cluster → Cluster) : (s.updCluster n f).poison = s.poison := rfl
@[simp] theorem upset_updCluster (s : State) (n : Nat) (f : Cluster → Cluster) : (s.updCluster n f).upset = s.upset := rfl
@[simp] theorem l2_updCluster (s : State) (n : Nat) (f : Cluster → Cluster) : (s.updCluster n f).l2 = s.l2 := rfl
@[simp] theorem msc_updCluster (s : State) (n : Nat) (f : Cluster → Cluster) : (s.updCluster n f).msc = s.msc := rfl
@[simp] theorem phases_updCluster (s : State) (n : Nat) (f : Cluster → Cluster) : (s.updCluster n f).phases = s.phases := rfl
@[simp] theorem tierOpen_updCluster (s : State) (n : Nat) (f : Cluster → Cluster) : (s.updCluster n f).tierOpen = s.tierOpen := rfl
@[simp] theorem chunkOf_updCluster (s : State) (n : Nat) (f : Cluster → Cluster) : (s.updCluster n f).chunkOf = s.chunkOf := rfl
@[simp] theorem extents_updCluster (s : State) (n : Nat) (f : Cluster → Cluster) : (s.updCluster n f).extents = s.extents := rfl
@[simp] theorem removed_updCluster (s : State) (n : Nat) (f : Cluster → Cluster) : (s.updCluster n f).removed = s.removed := rfl
@[simp] theorem pins_updCluster (s : State) (n : Nat) (f : Cluster → Cluster) : (s.updCluster n f).pins = s.pins := rfl
@[simp] theorem access_updCluster (s : State) (n : Nat) (f : Cluster → Cluster) : (s.updCluster n f).access = s.access := rfl
@[simp] theorem migrations_updCluster (s : State) (n : Nat) (f : Cluster → Cluster) : (s.updCluster n f).migrations = s.migrations := rfl
@[simp] theorem hints_updCluster (s : State) (n : Nat) (f : Cluster → Cluster) : (s.updCluster n f).hints = s.hints := rfl
@[simp] theorem takes_updCluster (s : State) (n : Nat) (f : Cluster → Cluster) : (s.updCluster n f).takes = s.takes := rfl
@[simp] theorem turns_updCluster (s : State) (n : Nat) (f : Cluster → Cluster) : (s.updCluster n f).turns = s.turns := rfl
@[simp] theorem slotBits_updCluster (s : State) (n : Nat) (f : Cluster → Cluster) : (s.updCluster n f).slotBits = s.slotBits := rfl
@[simp] theorem launches_updCluster (s : State) (n : Nat) (f : Cluster → Cluster) : (s.updCluster n f).launches = s.launches := rfl
@[simp] theorem packets_updCluster (s : State) (n : Nat) (f : Cluster → Cluster) : (s.updCluster n f).packets = s.packets := rfl
@[simp] theorem gathers_updCluster (s : State) (n : Nat) (f : Cluster → Cluster) : (s.updCluster n f).gathers = s.gathers := rfl
@[simp] theorem parties_updCluster (s : State) (n : Nat) (f : Cluster → Cluster) : (s.updCluster n f).parties = s.parties := rfl
@[simp] theorem cancels_updCluster (s : State) (n : Nat) (f : Cluster → Cluster) : (s.updCluster n f).cancels = s.cancels := rfl
@[simp] theorem truncs_updCluster (s : State) (n : Nat) (f : Cluster → Cluster) : (s.updCluster n f).truncs = s.truncs := rfl
@[simp] theorem notices_updCluster (s : State) (n : Nat) (f : Cluster → Cluster) : (s.updCluster n f).notices = s.notices := rfl
@[simp] theorem barMsgs_updCluster (s : State) (n : Nat) (f : Cluster → Cluster) : (s.updCluster n f).barMsgs = s.barMsgs := rfl
@[simp] theorem uirqs_updCluster (s : State) (n : Nat) (f : Cluster → Cluster) : (s.updCluster n f).uirqs = s.uirqs := rfl
@[simp] theorem wides_updCluster (s : State) (n : Nat) (f : Cluster → Cluster) : (s.updCluster n f).wides = s.wides := rfl
@[simp] theorem waitq_updCluster (s : State) (n : Nat) (f : Cluster → Cluster) : (s.updCluster n f).waitq = s.waitq := rfl
@[simp] theorem hwq_updCluster (s : State) (n : Nat) (f : Cluster → Cluster) : (s.updCluster n f).hwq = s.hwq := rfl
@[simp] theorem lost_updCluster (s : State) (n : Nat) (f : Cluster → Cluster) : (s.updCluster n f).lost = s.lost := rfl
@[simp] theorem remotes_updCluster (s : State) (n : Nat) (f : Cluster → Cluster) : (s.updCluster n f).remotes = s.remotes := rfl
@[simp] theorem wire_updCluster (s : State) (n : Nat) (f : Cluster → Cluster) : (s.updCluster n f).wire = s.wire := rfl
@[simp] theorem flash_updCluster (s : State) (n : Nat) (f : Cluster → Cluster) : (s.updCluster n f).flash = s.flash := rfl
@[simp] theorem bootstat_updCluster (s : State) (n : Nat) (f : Cluster → Cluster) : (s.updCluster n f).bootstat = s.bootstat := rfl
@[simp] theorem bootver_updCluster (s : State) (n : Nat) (f : Cluster → Cluster) : (s.updCluster n f).bootver = s.bootver := rfl
@[simp] theorem recovery_updCluster (s : State) (n : Nat) (f : Cluster → Cluster) : (s.updCluster n f).recovery = s.recovery := rfl
@[simp] theorem puf_updCluster (s : State) (n : Nat) (f : Cluster → Cluster) : (s.updCluster n f).puf = s.puf := rfl
@[simp] theorem sysPc_updCluster (s : State) (n : Nat) (f : Cluster → Cluster) : (s.updCluster n f).sysPc = s.sysPc := rfl
@[simp] theorem time_updCluster (s : State) (n : Nat) (f : Cluster → Cluster) : (s.updCluster n f).time = s.time := rfl
@[simp] theorem stopped_updCluster (s : State) (n : Nat) (f : Cluster → Cluster) : (s.updCluster n f).stopped = s.stopped := rfl
@[simp] theorem alert_updCluster (s : State) (n : Nat) (f : Cluster → Cluster) : (s.updCluster n f).alert = s.alert := rfl
@[simp] theorem arrayFreq_updCluster (s : State) (n : Nat) (f : Cluster → Cluster) : (s.updCluster n f).arrayFreq = s.arrayFreq := rfl
@[simp] theorem temps_updCluster (s : State) (n : Nat) (f : Cluster → Cluster) : (s.updCluster n f).temps = s.temps := rfl
@[simp] theorem power_updCluster (s : State) (n : Nat) (f : Cluster → Cluster) : (s.updCluster n f).power = s.power := rfl
@[simp] theorem reply_updCluster (s : State) (n : Nat) (f : Cluster → Cluster) : (s.updCluster n f).reply = s.reply := rfl
@[simp] theorem cur_updCluster (s : State) (n : Nat) (f : Cluster → Cluster) : (s.updCluster n f).cur = s.cur := rfl
@[simp] theorem agenda_updCluster (s : State) (n : Nat) (f : Cluster → Cluster) : (s.updCluster n f).agenda = s.agenda := rfl
@[simp] theorem served_updCluster (s : State) (n : Nat) (f : Cluster → Cluster) : (s.updCluster n f).served = s.served := rfl
@[simp] theorem burst_updCluster (s : State) (n : Nat) (f : Cluster → Cluster) : (s.updCluster n f).burst = s.burst := rfl
@[simp] theorem issue_updCluster (s : State) (n : Nat) (f : Cluster → Cluster) : (s.updCluster n f).issue = s.issue := rfl
@[simp] theorem fresh_updCluster (s : State) (n : Nat) (f : Cluster → Cluster) : (s.updCluster n f).fresh = s.fresh := rfl

/-! ## updPier: every other field stays -/

@[simp] theorem cores_updPier (s : State) (n : Nat) (f : Pier → Pier) : (s.updPier n f).cores = s.cores := rfl
@[simp] theorem clusters_updPier (s : State) (n : Nat) (f : Pier → Pier) : (s.updPier n f).clusters = s.clusters := rfl
@[simp] theorem vdevs_updPier (s : State) (n : Nat) (f : Pier → Pier) : (s.updPier n f).vdevs = s.vdevs := rfl
@[simp] theorem mem_updPier (s : State) (n : Nat) (f : Pier → Pier) : (s.updPier n f).mem = s.mem := rfl
@[simp] theorem poison_updPier (s : State) (n : Nat) (f : Pier → Pier) : (s.updPier n f).poison = s.poison := rfl
@[simp] theorem upset_updPier (s : State) (n : Nat) (f : Pier → Pier) : (s.updPier n f).upset = s.upset := rfl
@[simp] theorem l2_updPier (s : State) (n : Nat) (f : Pier → Pier) : (s.updPier n f).l2 = s.l2 := rfl
@[simp] theorem msc_updPier (s : State) (n : Nat) (f : Pier → Pier) : (s.updPier n f).msc = s.msc := rfl
@[simp] theorem phases_updPier (s : State) (n : Nat) (f : Pier → Pier) : (s.updPier n f).phases = s.phases := rfl
@[simp] theorem tierOpen_updPier (s : State) (n : Nat) (f : Pier → Pier) : (s.updPier n f).tierOpen = s.tierOpen := rfl
@[simp] theorem chunkOf_updPier (s : State) (n : Nat) (f : Pier → Pier) : (s.updPier n f).chunkOf = s.chunkOf := rfl
@[simp] theorem extents_updPier (s : State) (n : Nat) (f : Pier → Pier) : (s.updPier n f).extents = s.extents := rfl
@[simp] theorem removed_updPier (s : State) (n : Nat) (f : Pier → Pier) : (s.updPier n f).removed = s.removed := rfl
@[simp] theorem pins_updPier (s : State) (n : Nat) (f : Pier → Pier) : (s.updPier n f).pins = s.pins := rfl
@[simp] theorem access_updPier (s : State) (n : Nat) (f : Pier → Pier) : (s.updPier n f).access = s.access := rfl
@[simp] theorem migrations_updPier (s : State) (n : Nat) (f : Pier → Pier) : (s.updPier n f).migrations = s.migrations := rfl
@[simp] theorem hints_updPier (s : State) (n : Nat) (f : Pier → Pier) : (s.updPier n f).hints = s.hints := rfl
@[simp] theorem takes_updPier (s : State) (n : Nat) (f : Pier → Pier) : (s.updPier n f).takes = s.takes := rfl
@[simp] theorem turns_updPier (s : State) (n : Nat) (f : Pier → Pier) : (s.updPier n f).turns = s.turns := rfl
@[simp] theorem slotBits_updPier (s : State) (n : Nat) (f : Pier → Pier) : (s.updPier n f).slotBits = s.slotBits := rfl
@[simp] theorem launches_updPier (s : State) (n : Nat) (f : Pier → Pier) : (s.updPier n f).launches = s.launches := rfl
@[simp] theorem packets_updPier (s : State) (n : Nat) (f : Pier → Pier) : (s.updPier n f).packets = s.packets := rfl
@[simp] theorem gathers_updPier (s : State) (n : Nat) (f : Pier → Pier) : (s.updPier n f).gathers = s.gathers := rfl
@[simp] theorem parties_updPier (s : State) (n : Nat) (f : Pier → Pier) : (s.updPier n f).parties = s.parties := rfl
@[simp] theorem cancels_updPier (s : State) (n : Nat) (f : Pier → Pier) : (s.updPier n f).cancels = s.cancels := rfl
@[simp] theorem truncs_updPier (s : State) (n : Nat) (f : Pier → Pier) : (s.updPier n f).truncs = s.truncs := rfl
@[simp] theorem notices_updPier (s : State) (n : Nat) (f : Pier → Pier) : (s.updPier n f).notices = s.notices := rfl
@[simp] theorem barMsgs_updPier (s : State) (n : Nat) (f : Pier → Pier) : (s.updPier n f).barMsgs = s.barMsgs := rfl
@[simp] theorem uirqs_updPier (s : State) (n : Nat) (f : Pier → Pier) : (s.updPier n f).uirqs = s.uirqs := rfl
@[simp] theorem wides_updPier (s : State) (n : Nat) (f : Pier → Pier) : (s.updPier n f).wides = s.wides := rfl
@[simp] theorem waitq_updPier (s : State) (n : Nat) (f : Pier → Pier) : (s.updPier n f).waitq = s.waitq := rfl
@[simp] theorem hwq_updPier (s : State) (n : Nat) (f : Pier → Pier) : (s.updPier n f).hwq = s.hwq := rfl
@[simp] theorem lost_updPier (s : State) (n : Nat) (f : Pier → Pier) : (s.updPier n f).lost = s.lost := rfl
@[simp] theorem remotes_updPier (s : State) (n : Nat) (f : Pier → Pier) : (s.updPier n f).remotes = s.remotes := rfl
@[simp] theorem wire_updPier (s : State) (n : Nat) (f : Pier → Pier) : (s.updPier n f).wire = s.wire := rfl
@[simp] theorem flash_updPier (s : State) (n : Nat) (f : Pier → Pier) : (s.updPier n f).flash = s.flash := rfl
@[simp] theorem bootstat_updPier (s : State) (n : Nat) (f : Pier → Pier) : (s.updPier n f).bootstat = s.bootstat := rfl
@[simp] theorem bootver_updPier (s : State) (n : Nat) (f : Pier → Pier) : (s.updPier n f).bootver = s.bootver := rfl
@[simp] theorem recovery_updPier (s : State) (n : Nat) (f : Pier → Pier) : (s.updPier n f).recovery = s.recovery := rfl
@[simp] theorem puf_updPier (s : State) (n : Nat) (f : Pier → Pier) : (s.updPier n f).puf = s.puf := rfl
@[simp] theorem sysPc_updPier (s : State) (n : Nat) (f : Pier → Pier) : (s.updPier n f).sysPc = s.sysPc := rfl
@[simp] theorem time_updPier (s : State) (n : Nat) (f : Pier → Pier) : (s.updPier n f).time = s.time := rfl
@[simp] theorem stopped_updPier (s : State) (n : Nat) (f : Pier → Pier) : (s.updPier n f).stopped = s.stopped := rfl
@[simp] theorem alert_updPier (s : State) (n : Nat) (f : Pier → Pier) : (s.updPier n f).alert = s.alert := rfl
@[simp] theorem arrayFreq_updPier (s : State) (n : Nat) (f : Pier → Pier) : (s.updPier n f).arrayFreq = s.arrayFreq := rfl
@[simp] theorem temps_updPier (s : State) (n : Nat) (f : Pier → Pier) : (s.updPier n f).temps = s.temps := rfl
@[simp] theorem power_updPier (s : State) (n : Nat) (f : Pier → Pier) : (s.updPier n f).power = s.power := rfl
@[simp] theorem reply_updPier (s : State) (n : Nat) (f : Pier → Pier) : (s.updPier n f).reply = s.reply := rfl
@[simp] theorem cur_updPier (s : State) (n : Nat) (f : Pier → Pier) : (s.updPier n f).cur = s.cur := rfl
@[simp] theorem agenda_updPier (s : State) (n : Nat) (f : Pier → Pier) : (s.updPier n f).agenda = s.agenda := rfl
@[simp] theorem served_updPier (s : State) (n : Nat) (f : Pier → Pier) : (s.updPier n f).served = s.served := rfl
@[simp] theorem burst_updPier (s : State) (n : Nat) (f : Pier → Pier) : (s.updPier n f).burst = s.burst := rfl
@[simp] theorem issue_updPier (s : State) (n : Nat) (f : Pier → Pier) : (s.updPier n f).issue = s.issue := rfl
@[simp] theorem fresh_updPier (s : State) (n : Nat) (f : Pier → Pier) : (s.updPier n f).fresh = s.fresh := rfl

/-! ## updVdev: every other field stays -/

@[simp] theorem cores_updVdev (s : State) (n : Nat) (f : VDev → VDev) : (s.updVdev n f).cores = s.cores := rfl
@[simp] theorem clusters_updVdev (s : State) (n : Nat) (f : VDev → VDev) : (s.updVdev n f).clusters = s.clusters := rfl
@[simp] theorem piers_updVdev (s : State) (n : Nat) (f : VDev → VDev) : (s.updVdev n f).piers = s.piers := rfl
@[simp] theorem mem_updVdev (s : State) (n : Nat) (f : VDev → VDev) : (s.updVdev n f).mem = s.mem := rfl
@[simp] theorem poison_updVdev (s : State) (n : Nat) (f : VDev → VDev) : (s.updVdev n f).poison = s.poison := rfl
@[simp] theorem upset_updVdev (s : State) (n : Nat) (f : VDev → VDev) : (s.updVdev n f).upset = s.upset := rfl
@[simp] theorem l2_updVdev (s : State) (n : Nat) (f : VDev → VDev) : (s.updVdev n f).l2 = s.l2 := rfl
@[simp] theorem msc_updVdev (s : State) (n : Nat) (f : VDev → VDev) : (s.updVdev n f).msc = s.msc := rfl
@[simp] theorem phases_updVdev (s : State) (n : Nat) (f : VDev → VDev) : (s.updVdev n f).phases = s.phases := rfl
@[simp] theorem tierOpen_updVdev (s : State) (n : Nat) (f : VDev → VDev) : (s.updVdev n f).tierOpen = s.tierOpen := rfl
@[simp] theorem chunkOf_updVdev (s : State) (n : Nat) (f : VDev → VDev) : (s.updVdev n f).chunkOf = s.chunkOf := rfl
@[simp] theorem extents_updVdev (s : State) (n : Nat) (f : VDev → VDev) : (s.updVdev n f).extents = s.extents := rfl
@[simp] theorem removed_updVdev (s : State) (n : Nat) (f : VDev → VDev) : (s.updVdev n f).removed = s.removed := rfl
@[simp] theorem pins_updVdev (s : State) (n : Nat) (f : VDev → VDev) : (s.updVdev n f).pins = s.pins := rfl
@[simp] theorem access_updVdev (s : State) (n : Nat) (f : VDev → VDev) : (s.updVdev n f).access = s.access := rfl
@[simp] theorem migrations_updVdev (s : State) (n : Nat) (f : VDev → VDev) : (s.updVdev n f).migrations = s.migrations := rfl
@[simp] theorem hints_updVdev (s : State) (n : Nat) (f : VDev → VDev) : (s.updVdev n f).hints = s.hints := rfl
@[simp] theorem takes_updVdev (s : State) (n : Nat) (f : VDev → VDev) : (s.updVdev n f).takes = s.takes := rfl
@[simp] theorem turns_updVdev (s : State) (n : Nat) (f : VDev → VDev) : (s.updVdev n f).turns = s.turns := rfl
@[simp] theorem slotBits_updVdev (s : State) (n : Nat) (f : VDev → VDev) : (s.updVdev n f).slotBits = s.slotBits := rfl
@[simp] theorem launches_updVdev (s : State) (n : Nat) (f : VDev → VDev) : (s.updVdev n f).launches = s.launches := rfl
@[simp] theorem packets_updVdev (s : State) (n : Nat) (f : VDev → VDev) : (s.updVdev n f).packets = s.packets := rfl
@[simp] theorem gathers_updVdev (s : State) (n : Nat) (f : VDev → VDev) : (s.updVdev n f).gathers = s.gathers := rfl
@[simp] theorem parties_updVdev (s : State) (n : Nat) (f : VDev → VDev) : (s.updVdev n f).parties = s.parties := rfl
@[simp] theorem cancels_updVdev (s : State) (n : Nat) (f : VDev → VDev) : (s.updVdev n f).cancels = s.cancels := rfl
@[simp] theorem truncs_updVdev (s : State) (n : Nat) (f : VDev → VDev) : (s.updVdev n f).truncs = s.truncs := rfl
@[simp] theorem notices_updVdev (s : State) (n : Nat) (f : VDev → VDev) : (s.updVdev n f).notices = s.notices := rfl
@[simp] theorem barMsgs_updVdev (s : State) (n : Nat) (f : VDev → VDev) : (s.updVdev n f).barMsgs = s.barMsgs := rfl
@[simp] theorem uirqs_updVdev (s : State) (n : Nat) (f : VDev → VDev) : (s.updVdev n f).uirqs = s.uirqs := rfl
@[simp] theorem wides_updVdev (s : State) (n : Nat) (f : VDev → VDev) : (s.updVdev n f).wides = s.wides := rfl
@[simp] theorem waitq_updVdev (s : State) (n : Nat) (f : VDev → VDev) : (s.updVdev n f).waitq = s.waitq := rfl
@[simp] theorem hwq_updVdev (s : State) (n : Nat) (f : VDev → VDev) : (s.updVdev n f).hwq = s.hwq := rfl
@[simp] theorem lost_updVdev (s : State) (n : Nat) (f : VDev → VDev) : (s.updVdev n f).lost = s.lost := rfl
@[simp] theorem remotes_updVdev (s : State) (n : Nat) (f : VDev → VDev) : (s.updVdev n f).remotes = s.remotes := rfl
@[simp] theorem wire_updVdev (s : State) (n : Nat) (f : VDev → VDev) : (s.updVdev n f).wire = s.wire := rfl
@[simp] theorem flash_updVdev (s : State) (n : Nat) (f : VDev → VDev) : (s.updVdev n f).flash = s.flash := rfl
@[simp] theorem bootstat_updVdev (s : State) (n : Nat) (f : VDev → VDev) : (s.updVdev n f).bootstat = s.bootstat := rfl
@[simp] theorem bootver_updVdev (s : State) (n : Nat) (f : VDev → VDev) : (s.updVdev n f).bootver = s.bootver := rfl
@[simp] theorem recovery_updVdev (s : State) (n : Nat) (f : VDev → VDev) : (s.updVdev n f).recovery = s.recovery := rfl
@[simp] theorem puf_updVdev (s : State) (n : Nat) (f : VDev → VDev) : (s.updVdev n f).puf = s.puf := rfl
@[simp] theorem sysPc_updVdev (s : State) (n : Nat) (f : VDev → VDev) : (s.updVdev n f).sysPc = s.sysPc := rfl
@[simp] theorem time_updVdev (s : State) (n : Nat) (f : VDev → VDev) : (s.updVdev n f).time = s.time := rfl
@[simp] theorem stopped_updVdev (s : State) (n : Nat) (f : VDev → VDev) : (s.updVdev n f).stopped = s.stopped := rfl
@[simp] theorem alert_updVdev (s : State) (n : Nat) (f : VDev → VDev) : (s.updVdev n f).alert = s.alert := rfl
@[simp] theorem arrayFreq_updVdev (s : State) (n : Nat) (f : VDev → VDev) : (s.updVdev n f).arrayFreq = s.arrayFreq := rfl
@[simp] theorem temps_updVdev (s : State) (n : Nat) (f : VDev → VDev) : (s.updVdev n f).temps = s.temps := rfl
@[simp] theorem power_updVdev (s : State) (n : Nat) (f : VDev → VDev) : (s.updVdev n f).power = s.power := rfl
@[simp] theorem reply_updVdev (s : State) (n : Nat) (f : VDev → VDev) : (s.updVdev n f).reply = s.reply := rfl
@[simp] theorem cur_updVdev (s : State) (n : Nat) (f : VDev → VDev) : (s.updVdev n f).cur = s.cur := rfl
@[simp] theorem agenda_updVdev (s : State) (n : Nat) (f : VDev → VDev) : (s.updVdev n f).agenda = s.agenda := rfl
@[simp] theorem served_updVdev (s : State) (n : Nat) (f : VDev → VDev) : (s.updVdev n f).served = s.served := rfl
@[simp] theorem burst_updVdev (s : State) (n : Nat) (f : VDev → VDev) : (s.updVdev n f).burst = s.burst := rfl
@[simp] theorem issue_updVdev (s : State) (n : Nat) (f : VDev → VDev) : (s.updVdev n f).issue = s.issue := rfl
@[simp] theorem fresh_updVdev (s : State) (n : Nat) (f : VDev → VDev) : (s.updVdev n f).fresh = s.fresh := rfl

/-! ## A table is read past the updates of another -/

@[simp] theorem cluster_setCore (s : State) (n : Nat) (c : Core) (i : Nat) : (s.setCore n c).cluster i = s.cluster i := rfl
@[simp] theorem pier_setCore (s : State) (n : Nat) (c : Core) (i : Nat) : (s.setCore n c).pier i = s.pier i := rfl
@[simp] theorem vdev_setCore (s : State) (n : Nat) (c : Core) (i : Nat) : (s.setCore n c).vdev i = s.vdev i := rfl
@[simp] theorem cluster_updCore (s : State) (n : Nat) (f : Core → Core) (i : Nat) : (s.updCore n f).cluster i = s.cluster i := rfl
@[simp] theorem pier_updCore (s : State) (n : Nat) (f : Core → Core) (i : Nat) : (s.updCore n f).pier i = s.pier i := rfl
@[simp] theorem vdev_updCore (s : State) (n : Nat) (f : Core → Core) (i : Nat) : (s.updCore n f).vdev i = s.vdev i := rfl
@[simp] theorem cluster_setCtx (s : State) (n j : Nat) (x : Ctx) (i : Nat) : (s.setCtx n j x).cluster i = s.cluster i := rfl
@[simp] theorem pier_setCtx (s : State) (n j : Nat) (x : Ctx) (i : Nat) : (s.setCtx n j x).pier i = s.pier i := rfl
@[simp] theorem vdev_setCtx (s : State) (n j : Nat) (x : Ctx) (i : Nat) : (s.setCtx n j x).vdev i = s.vdev i := rfl
@[simp] theorem cluster_updCtx (s : State) (n j : Nat) (f : Ctx → Ctx) (i : Nat) : (s.updCtx n j f).cluster i = s.cluster i := rfl
@[simp] theorem pier_updCtx (s : State) (n j : Nat) (f : Ctx → Ctx) (i : Nat) : (s.updCtx n j f).pier i = s.pier i := rfl
@[simp] theorem vdev_updCtx (s : State) (n j : Nat) (f : Ctx → Ctx) (i : Nat) : (s.updCtx n j f).vdev i = s.vdev i := rfl
@[simp] theorem cluster_updMe (s : State) (f : Ctx → Ctx) (i : Nat) : (s.updMe f).cluster i = s.cluster i := rfl
@[simp] theorem pier_updMe (s : State) (f : Ctx → Ctx) (i : Nat) : (s.updMe f).pier i = s.pier i := rfl
@[simp] theorem vdev_updMe (s : State) (f : Ctx → Ctx) (i : Nat) : (s.updMe f).vdev i = s.vdev i := rfl
@[simp] theorem cluster_updMyCore (s : State) (f : Core → Core) (i : Nat) : (s.updMyCore f).cluster i = s.cluster i := rfl
@[simp] theorem pier_updMyCore (s : State) (f : Core → Core) (i : Nat) : (s.updMyCore f).pier i = s.pier i := rfl
@[simp] theorem vdev_updMyCore (s : State) (f : Core → Core) (i : Nat) : (s.updMyCore f).vdev i = s.vdev i := rfl
@[simp] theorem core_updCluster (s : State) (n : Nat) (f : Cluster → Cluster) (i : Nat) : (s.updCluster n f).core i = s.core i := rfl
@[simp] theorem pier_updCluster (s : State) (n : Nat) (f : Cluster → Cluster) (i : Nat) : (s.updCluster n f).pier i = s.pier i := rfl
@[simp] theorem vdev_updCluster (s : State) (n : Nat) (f : Cluster → Cluster) (i : Nat) : (s.updCluster n f).vdev i = s.vdev i := rfl
@[simp] theorem ctx_updCluster (s : State) (n : Nat) (f : Cluster → Cluster) (i k : Nat) : (s.updCluster n f).ctx i k = s.ctx i k := rfl
@[simp] theorem me_updCluster (s : State) (n : Nat) (f : Cluster → Cluster) : (s.updCluster n f).me = s.me := rfl
@[simp] theorem mycore_updCluster (s : State) (n : Nat) (f : Cluster → Cluster) : (s.updCluster n f).mycore = s.mycore := rfl
@[simp] theorem j_updCluster (s : State) (n : Nat) (f : Cluster → Cluster) : (s.updCluster n f).j = s.j := rfl
@[simp] theorem core_updPier (s : State) (n : Nat) (f : Pier → Pier) (i : Nat) : (s.updPier n f).core i = s.core i := rfl
@[simp] theorem cluster_updPier (s : State) (n : Nat) (f : Pier → Pier) (i : Nat) : (s.updPier n f).cluster i = s.cluster i := rfl
@[simp] theorem vdev_updPier (s : State) (n : Nat) (f : Pier → Pier) (i : Nat) : (s.updPier n f).vdev i = s.vdev i := rfl
@[simp] theorem ctx_updPier (s : State) (n : Nat) (f : Pier → Pier) (i k : Nat) : (s.updPier n f).ctx i k = s.ctx i k := rfl
@[simp] theorem me_updPier (s : State) (n : Nat) (f : Pier → Pier) : (s.updPier n f).me = s.me := rfl
@[simp] theorem mycore_updPier (s : State) (n : Nat) (f : Pier → Pier) : (s.updPier n f).mycore = s.mycore := rfl
@[simp] theorem j_updPier (s : State) (n : Nat) (f : Pier → Pier) : (s.updPier n f).j = s.j := rfl
@[simp] theorem core_updVdev (s : State) (n : Nat) (f : VDev → VDev) (i : Nat) : (s.updVdev n f).core i = s.core i := rfl
@[simp] theorem cluster_updVdev (s : State) (n : Nat) (f : VDev → VDev) (i : Nat) : (s.updVdev n f).cluster i = s.cluster i := rfl
@[simp] theorem pier_updVdev (s : State) (n : Nat) (f : VDev → VDev) (i : Nat) : (s.updVdev n f).pier i = s.pier i := rfl
@[simp] theorem ctx_updVdev (s : State) (n : Nat) (f : VDev → VDev) (i k : Nat) : (s.updVdev n f).ctx i k = s.ctx i k := rfl
@[simp] theorem me_updVdev (s : State) (n : Nat) (f : VDev → VDev) : (s.updVdev n f).me = s.me := rfl
@[simp] theorem mycore_updVdev (s : State) (n : Nat) (f : VDev → VDev) : (s.updVdev n f).mycore = s.mycore := rfl
@[simp] theorem j_updVdev (s : State) (n : Nat) (f : VDev → VDev) : (s.updVdev n f).j = s.j := rfl

/-! ## The core and context that issue -/

@[simp] theorem j_updMe (s : State) (f : Ctx → Ctx) : (s.updMe f).j = s.j := by
  simp [State.j, State.updMe, Core.setCtx]

@[simp] theorem me_updMe (s : State) (f : Ctx → Ctx) : (s.updMe f).me = f s.me := by
  rw [State.me, j_updMe]
  simp [State.updMe, State.me]

@[simp] theorem mycore_updMyCore (s : State) (f : Core → Core) : (s.updMyCore f).mycore = f s.mycore := by
  simp [State.mycore, State.updMyCore]

@[simp] theorem mycore_updMe (s : State) (f : Ctx → Ctx) : (s.updMe f).mycore = s.mycore.setCtx s.j (f s.me) := by
  simp [State.mycore, State.updMe, State.me]

theorem core_updMe_ne (s : State) (f : Ctx → Ctx) (n : Nat) (h : n ≠ s.cur) : (s.updMe f).core n = s.core n :=
  core_setCore_ne s s.cur n _ h

theorem core_updMyCore_ne (s : State) (f : Core → Core) (n : Nat) (h : n ≠ s.cur) :
    (s.updMyCore f).core n = s.core n := core_setCore_ne s s.cur n _ h

theorem ctx_updMe_ne (s : State) (f : Ctx → Ctx) (n j : Nat) (h : n ≠ s.cur ∨ j ≠ s.j) :
    (s.updMe f).ctx n j = s.ctx n j := ctx_setCtx_ne s s.cur s.j n j _ h

theorem rd_of_issue (s t : State) (x : Ctx) (h : s.issue.rd = some x) (e : t.issue = s.issue) : t.rd = s.rd := by
  simp [State.rd, e, h]

/-! ## setCtx of a core: every other field stays -/

@[simp] theorem cur_cSetCtx (c : Core) (j : Nat) (x : Ctx) : (c.setCtx j x).cur = c.cur := rfl
@[simp] theorem run_cSetCtx (c : Core) (j : Nat) (x : Ctx) : (c.setCtx j x).run = c.run := rfl
@[simp] theorem pool_cSetCtx (c : Core) (j : Nat) (x : Ctx) : (c.setCtx j x).pool = c.pool := rfl
@[simp] theorem b0_cSetCtx (c : Core) (j : Nat) (x : Ctx) : (c.setCtx j x).b0 = c.b0 := rfl
@[simp] theorem b1_cSetCtx (c : Core) (j : Nat) (x : Ctx) : (c.setCtx j x).b1 = c.b1 := rfl
@[simp] theorem b2_cSetCtx (c : Core) (j : Nat) (x : Ctx) : (c.setCtx j x).b2 = c.b2 := rfl
@[simp] theorem setpool_cSetCtx (c : Core) (j : Nat) (x : Ctx) : (c.setCtx j x).setpool = c.setpool := rfl
@[simp] theorem lwbase_cSetCtx (c : Core) (j : Nat) (x : Ctx) : (c.setCtx j x).lwbase = c.lwbase := rfl
@[simp] theorem pbound_cSetCtx (c : Core) (j : Nat) (x : Ctx) : (c.setCtx j x).pbound = c.pbound := rfl
@[simp] theorem tvec_cSetCtx (c : Core) (j : Nat) (x : Ctx) : (c.setCtx j x).tvec = c.tvec := rfl
@[simp] theorem l1_cSetCtx (c : Core) (j : Nat) (x : Ctx) : (c.setCtx j x).l1 = c.l1 := rfl
@[simp] theorem l1upset_cSetCtx (c : Core) (j : Nat) (x : Ctx) : (c.setCtx j x).l1upset = c.l1upset := rfl
@[simp] theorem utlb_cSetCtx (c : Core) (j : Nat) (x : Ctx) : (c.setCtx j x).utlb = c.utlb := rfl
@[simp] theorem acc0_cSetCtx (c : Core) (j : Nat) (x : Ctx) : (c.setCtx j x).acc0 = c.acc0 := rfl
@[simp] theorem acc1_cSetCtx (c : Core) (j : Nat) (x : Ctx) : (c.setCtx j x).acc1 = c.acc1 := rfl
@[simp] theorem active_cSetCtx (c : Core) (j : Nat) (x : Ctx) : (c.setCtx j x).active = c.active := rfl
@[simp] theorem shadow_cSetCtx (c : Core) (j : Nat) (x : Ctx) : (c.setCtx j x).shadow = c.shadow := rfl
@[simp] theorem arc_cSetCtx (c : Core) (j : Nat) (x : Ctx) : (c.setCtx j x).arc = c.arc := rfl
@[simp] theorem brc_cSetCtx (c : Core) (j : Nat) (x : Ctx) : (c.setCtx j x).brc = c.brc := rfl
@[simp] theorem ahd_cSetCtx (c : Core) (j : Nat) (x : Ctx) : (c.setCtx j x).ahd = c.ahd := rfl
@[simp] theorem atl_cSetCtx (c : Core) (j : Nat) (x : Ctx) : (c.setCtx j x).atl = c.atl := rfl
@[simp] theorem bhd_cSetCtx (c : Core) (j : Nat) (x : Ctx) : (c.setCtx j x).bhd = c.bhd := rfl
@[simp] theorem btl_cSetCtx (c : Core) (j : Nat) (x : Ctx) : (c.setCtx j x).btl = c.btl := rfl
@[simp] theorem atiles_cSetCtx (c : Core) (j : Nat) (x : Ctx) : (c.setCtx j x).atiles = c.atiles := rfl
@[simp] theorem btiles_cSetCtx (c : Core) (j : Nat) (x : Ctx) : (c.setCtx j x).btiles = c.btiles := rfl
@[simp] theorem bslot_cSetCtx (c : Core) (j : Nat) (x : Ctx) : (c.setCtx j x).bslot = c.bslot := rfl
@[simp] theorem scales_cSetCtx (c : Core) (j : Nat) (x : Ctx) : (c.setCtx j x).scales = c.scales := rfl
@[simp] theorem scalesIn_cSetCtx (c : Core) (j : Nat) (x : Ctx) : (c.setCtx j x).scalesIn = c.scalesIn := rfl
@[simp] theorem bscales_cSetCtx (c : Core) (j : Nat) (x : Ctx) : (c.setCtx j x).bscales = c.bscales := rfl
@[simp] theorem fifo_cSetCtx (c : Core) (j : Nat) (x : Ctx) : (c.setCtx j x).fifo = c.fifo := rfl
@[simp] theorem fifoSegs_cSetCtx (c : Core) (j : Nat) (x : Ctx) : (c.setCtx j x).fifoSegs = c.fifoSegs := rfl
@[simp] theorem replay_cSetCtx (c : Core) (j : Nat) (x : Ctx) : (c.setCtx j x).replay = c.replay := rfl
@[simp] theorem malformed_cSetCtx (c : Core) (j : Nat) (x : Ctx) : (c.setCtx j x).malformed = c.malformed := rfl
@[simp] theorem play_cSetCtx (c : Core) (j : Nat) (x : Ctx) : (c.setCtx j x).play = c.play := rfl
@[simp] theorem owner_cSetCtx (c : Core) (j : Nat) (x : Ctx) : (c.setCtx j x).owner = c.owner := rfl
@[simp] theorem saved_cSetCtx (c : Core) (j : Nat) (x : Ctx) : (c.setCtx j x).saved = c.saved := rfl
@[simp] theorem shuffle_cSetCtx (c : Core) (j : Nat) (x : Ctx) : (c.setCtx j x).shuffle = c.shuffle := rfl
@[simp] theorem beats_cSetCtx (c : Core) (j : Nat) (x : Ctx) : (c.setCtx j x).beats = c.beats := rfl
@[simp] theorem unitOps_cSetCtx (c : Core) (j : Nat) (x : Ctx) : (c.setCtx j x).unitOps = c.unitOps := rfl
@[simp] theorem counters_cSetCtx (c : Core) (j : Nat) (x : Ctx) : (c.setCtx j x).counters = c.counters := rfl
@[simp] theorem clock_cSetCtx (c : Core) (j : Nat) (x : Ctx) : (c.setCtx j x).clock = c.clock := rfl

end Sys2Proof.Machine
end

