-- ==== Sys2Proof/Laws/MemSys.lean ====
section
/-! SUPPORT. Laws/MemSys.lean: what an access at a home can change: caches, errors, chunks, counts and memory, and nothing
of any core, cluster or unit of work. -/

namespace Sys2Proof.Machine

open Sys2Proof

/-- t is s but for what an access at a home keeps: memory, its errors, the caches, chunks, access counts, the slot bits,
the writes of hardware that wait, and the registers of Pier dies and virtual devices. -/
def MemOnly (s t : State) : Prop :=
  t = { s with
    mem := t.mem, poison := t.poison, upset := t.upset, l2 := t.l2, msc := t.msc, chunkOf := t.chunkOf,
    access := t.access, piers := t.piers, vdevs := t.vdevs, slotBits := t.slotBits, hwq := t.hwq }

theorem MemOnly.refl (s : State) : MemOnly s s := rfl

theorem MemOnly.trans {s t u : State} (h : MemOnly s t) (g : MemOnly t u) : MemOnly s u := by
  rw [MemOnly] at *
  rw [g, h]

theorem MemOnly.cores {s t : State} (h : MemOnly s t) : t.cores = s.cores := by rw [h]
theorem MemOnly.clusters {s t : State} (h : MemOnly s t) : t.clusters = s.clusters := by rw [h]
theorem MemOnly.launches {s t : State} (h : MemOnly s t) : t.launches = s.launches := by rw [h]
theorem MemOnly.packets {s t : State} (h : MemOnly s t) : t.packets = s.packets := by rw [h]
theorem MemOnly.parties {s t : State} (h : MemOnly s t) : t.parties = s.parties := by rw [h]
theorem MemOnly.gathers {s t : State} (h : MemOnly s t) : t.gathers = s.gathers := by rw [h]
theorem MemOnly.issue {s t : State} (h : MemOnly s t) : t.issue = s.issue := by rw [h]
theorem MemOnly.cur {s t : State} (h : MemOnly s t) : t.cur = s.cur := by rw [h]
theorem MemOnly.removed {s t : State} (h : MemOnly s t) : t.removed = s.removed := by rw [h]
theorem MemOnly.lost {s t : State} (h : MemOnly s t) : t.lost = s.lost := by rw [h]
theorem MemOnly.extents {s t : State} (h : MemOnly s t) : t.extents = s.extents := by rw [h]
theorem MemOnly.tierOpen {s t : State} (h : MemOnly s t) : t.tierOpen = s.tierOpen := by rw [h]

theorem MemOnly.core {s t : State} (h : MemOnly s t) (n : Nat) : t.core n = s.core n := by simp [State.core, h.cores]
theorem MemOnly.ctx {s t : State} (h : MemOnly s t) (n j : Nat) : t.ctx n j = s.ctx n j := by simp [State.ctx, h.core]
theorem MemOnly.cluster {s t : State} (h : MemOnly s t) (n : Nat) : t.cluster n = s.cluster n := by
  simp [State.cluster, h.clusters]
theorem MemOnly.launch {s t : State} (h : MemOnly s t) (k : Nat) : t.launch k = s.launch k := by
  simp [State.launch, h.launches]
theorem MemOnly.gone {s t : State} (h : MemOnly s t) (pa n : Nat) : t.gone pa n = s.gone pa n := by
  simp [State.gone, State.lostRanges, h.removed, h.lost]

/-! ## Each operation -/

/-- All that a machine check can do: nothing, a record that waits, one more in LOST, or a record in the queue. -/
theorem machineCheck_cases (s : State) (v pa kind ctx sect : Nat) :
    s.machineCheck v pa kind ctx sect = s ∨
      (∃ o, s.machineCheck v pa kind ctx sect = s.hwPush v o) ∨
      (∃ a bs, s.machineCheck v pa kind ctx sect = s.hwWrite a bs) ∨
      ∃ a b as bs, s.machineCheck v pa kind ctx sect =
        ((s.updVdev v fun d => { d with mcheckIrq := true }).hwWrite a as).hwWrite b bs := by
  simp only [State.machineCheck]
  split
  · exact .inr (.inl ⟨_, rfl⟩)
  · simp only [State.mcheckNow]
    split
    · exact .inl rfl
    · split
      · exact .inr (.inr (.inl ⟨_, _, rfl⟩))
      · split
        · exact .inl rfl
        · exact .inr (.inr (.inr ⟨_, _, _, _, rfl⟩))

theorem hwWrite_only (s : State) (pa : Nat) (bs : List Byte) : MemOnly s (s.hwWrite pa bs) := rfl

theorem hwPush_only (s : State) (v : Nat) (o : HwOp) : MemOnly s (s.hwPush v o) := rfl

theorem machineCheck_only (s : State) (v pa kind ctx sect : Nat) : MemOnly s (s.machineCheck v pa kind ctx sect) := by
  rcases machineCheck_cases s v pa kind ctx sect with h | ⟨o, h⟩ | ⟨a, bs, h⟩ | ⟨a, b, as, bs, h⟩ <;> rw [h]
  · exact .refl s
  · exact hwPush_only s v o
  · rfl
  · rfl

theorem tierWrite_only (s : State) (la : Nat) : MemOnly s (s.tierWrite la) := by
  simp only [State.tierWrite]
  split
  · exact .refl s
  · split <;> rfl

theorem spoil_only (s : State) (l : Line) : MemOnly s (s.spoil l) := by
  simp only [State.spoil]
  split
  · exact .refl s
  · exact MemOnly.trans (t := { s with
      upset := s.upset.filter (fun x => x / 4 != l.pa), poison := (s.upset.filter fun x => x / 4 == l.pa) ++ s.poison })
      rfl (machineCheck_only _ _ _ _ _ _)

theorem toTier_only (s : State) (l : Line) : MemOnly s (s.toTier l) := by
  simp only [State.toTier]
  split
  · exact .refl s
  · exact (spoil_only s l).trans (tierWrite_only _ _)

theorem withMsc_only (s : State) (m : List Line) : MemOnly s { s with msc := m } := rfl
theorem withL2_only (s : State) (m : List Line) : MemOnly s { s with l2 := m } := rfl

/-- All that the entry of a line in L2 can do: the line enters, and a victim may be placed in the MSC. -/
theorem l2Insert_cases (s : State) (l : Line) :
    s.l2Insert l = s ∨ (∃ m, s.l2Insert l = { s with l2 := m }) ∨ ∃ old m, s.l2Insert l = { s with l2 := m }.mscPlace old := by
  unfold State.l2Insert
  extract_lets same
  split
  · exact .inr (.inl ⟨_, rfl⟩)
  · split
    · exact .inl rfl
    · exact .inr (.inr ⟨_, _, rfl⟩)

/-- All that the placement of an L2 victim can do. -/
theorem mscPlace_cases (s : State) (l : Line) :
    s.mscPlace l = s.toTier l ∨ (∃ m, s.mscPlace l = { s.spoil l with msc := m }) ∨
      s.mscPlace l = (s.spoil l).toTier l ∨ ∃ old m, s.mscPlace l = { (s.spoil l).toTier old with msc := m } := by
  unfold State.mscPlace
  extract_lets d mask pol u same ways
  split
  · exact .inl rfl
  · split
    · exact .inr (.inl ⟨_, rfl⟩)
    · split
      · exact .inr (.inr (.inl rfl))
      · exact .inr (.inr (.inr ⟨_, _, rfl⟩))

theorem mscPlace_only (s : State) (l : Line) : MemOnly s (s.mscPlace l) := by
  rcases mscPlace_cases s l with h | ⟨m, h⟩ | h | ⟨old, m, h⟩ <;> rw [h]
  · exact toTier_only s l
  · exact (spoil_only s l).trans (withMsc_only _ _)
  · exact (spoil_only s l).trans (toTier_only _ _)
  · exact (spoil_only s l).trans ((toTier_only _ _).trans (withMsc_only _ _))

theorem l2Insert_only (s : State) (l : Line) : MemOnly s (s.l2Insert l) := by
  rcases l2Insert_cases s l with h | ⟨m, h⟩ | ⟨old, m, h⟩ <;> rw [h]
  · exact .refl s
  · exact withL2_only s m
  · exact (withL2_only s m).trans (mscPlace_only _ _)

theorem countPage_only (s : State) (pa v : Nat) : MemOnly s (s.countPage pa v) := by
  simp only [State.countPage]
  split
  · exact .refl s
  · split <;> rfl

theorem l2Touch_only (s : State) (pa v tc : Nat) (acc : Access) (own : Option (Nat × Nat)) :
    MemOnly s (s.l2Touch pa v tc acc own) := by
  simp only [State.l2Touch]
  split
  · exact (countPage_only s pa v).trans (withL2_only _ _)
  · split
    · exact (countPage_only s pa v).trans ((withMsc_only _ _).trans (l2Insert_only _ _))
    · exact (countPage_only s pa v).trans (l2Insert_only _ _)

theorem foldl_only {α : Type} (f : State → α → State) (h : ∀ s a, MemOnly s (f s a)) (l : List α) (s : State) :
    MemOnly s (l.foldl f s) := by
  induction l generalizing s with
  | nil => exact .refl s
  | cons a t ih => exact (h s a).trans (ih _)

theorem l2TouchAll_only (s : State) (pa n v tc : Nat) (acc : Access) (own : Option (Nat × Nat)) :
    MemOnly s (s.l2TouchAll pa n v tc acc own) := foldl_only _ (fun s _ => l2Touch_only s _ _ _ _ _) _ _

theorem homeWrite_only (s : State) (pa : Nat) (bs : List Byte) (v tc : Nat) (acc : Access) (own : Nat) :
    MemOnly s (s.homeWrite pa bs v tc acc own) := by
  simp only [State.homeWrite]
  split
  · exact .refl s
  · exact MemOnly.trans (t := { s with
      mem := s.mem.writeN pa bs,
      poison := s.poison.filter (fun x => !(coveredSectors pa bs.length).contains x),
      upset := s.upset.filter (fun x => !(coveredSectors pa bs.length).contains x),
      slotBits := s.slotBits.filter fun b => !decide (b.pa < pa + bs.length ∧ pa < b.pa + 64) })
      rfl (l2TouchAll_only _ _ _ _ _ _ _)

theorem chargeRead_only (s : State) (pa n v : Nat) : MemOnly s (s.chargeRead pa n v) :=
  foldl_only _ (fun s _ => machineCheck_only s _ _ _ _ _) _ _

theorem homeRead_only (s : State) (pa n v tc : Nat) : MemOnly s (s.homeRead pa n v tc).1 := by
  rw [State.homeRead]
  split
  · dsimp only; exact l2TouchAll_only s pa n v tc .read none
  · dsimp only; exact chargeRead_only s _ _ _
  · exact .refl s

theorem updPier_only (s : State) (p : Nat) (f : Pier → Pier) : MemOnly s (s.updPier p f) := rfl

theorem fillWalker_only (s : State) (v va : Nat) : MemOnly s (s.fillWalker v va) := by
  simp only [State.fillWalker]
  split
  · exact .refl s
  · exact (foldl_only _ (fun s _ => homeRead_only s _ _ _ _) _ _).trans (updPier_only _ _ _)

theorem walked_only (s : State) (tlb : List TlbEntry) (v va : Nat) : MemOnly s (s.walked tlb v va) := by
  simp only [State.walked]
  split
  · exact .refl s
  · exact fillWalker_only s v va

theorem devReadL_only (s : State) (tlb : List TlbEntry) (v : Nat) (user : Bool) (l : List (Nat × Nat)) :
    MemOnly s (s.devReadL tlb v user false l).1 := by
  induction l generalizing s with
  | nil => rw [State.devReadL]; exact .refl s
  | cons a t ih =>
    rw [State.devReadL]
    cases s.translate tlb v a.1 .r user with
    | error c => exact walked_only s tlb v a.1
    | ok tr =>
      dsimp only
      have h := (walked_only s tlb v a.1).trans (homeRead_only _ tr.pa a.2 v (fld tr.pte 8 7))
      revert h
      generalize (s.walked tlb v a.1).homeRead tr.pa a.2 v (fld tr.pte 8 7) = r
      obtain ⟨u, r⟩ := r
      intro h
      cases r with
      | error c => exact h
      | ok bs =>
        dsimp only
        have g := ih u
        revert g
        generalize u.devReadL tlb v user false t = q
        obtain ⟨w, q⟩ := q
        intro g
        cases q <;> exact h.trans g

theorem devRead_only (s : State) (v va n : Nat) (user : Bool) : MemOnly s (s.devRead v va n user).1 :=
  devReadL_only s [] v user _

theorem devWriteL_only (s : State) (tlb : List TlbEntry) (v : Nat) (user : Bool) (own : Nat) (l : List (Nat × Nat))
    (bs : List Byte) : MemOnly s (s.devWriteL tlb v user own false l bs).1 := by
  induction l generalizing s bs with
  | nil => exact .refl s
  | cons a t ih =>
    obtain ⟨va, k⟩ := a
    simp only [State.devWriteL]
    split
    · exact walked_only s tlb v va
    · split
      · exact walked_only s tlb v va
      · exact (walked_only s tlb v va).trans ((homeWrite_only _ _ _ _ _ _ _).trans (ih _ _))

theorem devWrite_only (s : State) (v va : Nat) (bs : List Byte) (user : Bool) (own : Nat) :
    MemOnly s (s.devWrite v va bs user own).1 := devWriteL_only s [] v user own _ _

theorem devPutNow_only (s : State) (v va : Nat) (bs : List Byte) (own : Nat) : MemOnly s (s.devPutNow v va bs own) :=
  devWrite_only _ _ _ _ _ _

/-- A write of hardware that waits or is made now. -/
theorem waitOr_only {s t : State} (v : Nat) (o : HwOp) (c : Bool) (h : MemOnly s t) :
    MemOnly s (if c then s.hwPush v o else t) := by
  split
  · exact hwPush_only s v o
  · exact h

theorem devPut_only (s : State) (v va : Nat) (bs : List Byte) (own : Nat) : MemOnly s (s.devPut v va bs own) :=
  waitOr_only _ _ _ (devPutNow_only s v va bs own)

theorem putStatus_only (s : State) (v slot w own : Nat) : MemOnly s (s.putStatus v slot w own none) :=
  waitOr_only _ _ _ ((devPutNow_only s v (slot + 4) (toBytes 4 w) own).trans
    (u := s.putStatusNow v slot w own none) rfl)

theorem queueLogNow_only (s : State) (v hdr addr kind : Nat) (f : Bool) (agent wid own : Nat) :
    MemOnly s (s.queueLogNow v hdr addr kind f agent wid own) := by
  simp only [State.queueLogNow]
  split
  · exact devRead_only _ _ _ _ _
  · exact (devRead_only _ _ _ _ _).trans (devPutNow_only _ _ _ _ _)

theorem queueLog_only (s : State) (v hdr addr kind : Nat) (f : Bool) (agent wid own : Nat) :
    MemOnly s (s.queueLog v hdr addr kind f agent wid own) := waitOr_only _ _ _ (queueLogNow_only _ _ _ _ _ _ _ _ _)

theorem riNow_only (s : State) (v hdr ti own k : Nat) : MemOnly s (s.riNow v hdr ti own k) := by
  induction k generalizing s with
  | zero => exact .refl s
  | succ k ih =>
    simp only [State.riNow]
    split
    · exact (devPutNow_only _ _ _ _ _).trans (ih _)
    · exact .refl s

theorem advanceRi_only (s : State) (v hdr : Nat) (l : Bool) (own : Nat) : MemOnly s (s.advanceRi v hdr l own) :=
  waitOr_only _ _ _ (riNow_only _ _ _ _ _ _)

theorem recReadL_only (s : State) (v : Nat) (l : List (Nat × Nat)) : MemOnly s (s.recReadL v l).1 := by
  induction l generalizing s with
  | nil => exact .refl s
  | cons a t ih =>
    obtain ⟨va, k⟩ := a
    rw [State.recReadL]
    cases s.translate [] v va .rw false with
    | error c => exact walked_only s [] v va
    | ok tr =>
      dsimp only
      have h := devRead_only s v va k false
      cases hr : (s.devRead v va k false).2 with
      | error c => exact h
      | ok bs =>
        dsimp only
        have g := ih (s.devRead v va k false).1
        cases hq : ((s.devRead v va k false).1.recReadL v t).2 <;> exact h.trans g

theorem recRead_only (s : State) (v va n : Nat) : MemOnly s (s.recRead v va n).1 := recReadL_only _ _ _

theorem recWriteL_only (s : State) (v own : Nat) (l : List (Nat × Nat)) (bs : List Byte) :
    MemOnly s (s.recWriteL v own l bs).1 := by
  induction l generalizing s bs with
  | nil => exact .refl s
  | cons a t ih =>
    obtain ⟨va, k⟩ := a
    simp only [State.recWriteL]
    split
    · exact walked_only s [] v va
    · split
      · exact devWrite_only _ _ _ _ _ _
      · exact (devWrite_only _ _ _ _ _ _).trans (ih _ _)

theorem recWrite_only (s : State) (v va : Nat) (bs : List Byte) (own : Nat) : MemOnly s (s.recWrite v va bs own).1 :=
  recWriteL_only _ _ _ _ _

theorem killedNow_only (s : State) (v a : Nat) : MemOnly s (s.killedNow v a) := by
  simp only [State.killedNow]
  split
  · exact recRead_only _ _ _ _
  · exact (recRead_only _ _ _ _).trans (recWrite_only _ _ _ _ _)

theorem atomicHome_only (s : State) (pa w v tc own : Nat) (f : Nat → Nat) : MemOnly s (s.atomicHome pa w v tc own f).1 := by
  rw [State.atomicHome]
  split
  · exact homeWrite_only _ _ _ _ _ _ _
  · exact chargeRead_only _ _ _ _
  · exact .refl s

theorem putLink_only (s : State) (v a link : Nat) : MemOnly s (s.putLink v a link).1 := by
  simp only [State.putLink]
  split
  · exact hwPush_only _ _ _
  · exact recWrite_only _ _ _ _ _

theorem markKilled_only (s : State) (v : Nat) (e : Entry) : MemOnly s (s.markKilled v e) :=
  waitOr_only _ _ _ (killedNow_only _ _ _)

theorem relink_only (s : State) (v : Nat) (old new l : List Entry) : MemOnly s (s.relink v old new l).1 := by
  induction l generalizing s with
  | nil => exact .refl s
  | cons e t ih =>
    simp only [State.relink]
    split
    · exact ih s
    · split <;> exact (putLink_only _ _ _ _).trans (ih _)

/-! ## Where no error is waiting to be found, memory changes only by a write -/

theorem spoil_clean (s : State) (l : Line) (h : s.upset = []) : s.spoil l = s := by
  simp [State.spoil, h, sectorsIn]

theorem tierWrite_mem (s : State) (la : Nat) : (s.tierWrite la).mem = s.mem ∧ (s.tierWrite la).upset = s.upset := by
  simp only [State.tierWrite]
  split
  · exact ⟨rfl, rfl⟩
  · split <;> exact ⟨rfl, rfl⟩

theorem toTier_clean (s : State) (l : Line) (h : s.upset = []) : (s.toTier l).mem = s.mem ∧ (s.toTier l).upset = [] := by
  simp only [State.toTier]
  split
  · exact ⟨rfl, h⟩
  · rw [spoil_clean s l h]
    exact ⟨(tierWrite_mem s l.pa).1, (tierWrite_mem s l.pa).2.trans h⟩

theorem mscPlace_clean (s : State) (l : Line) (h : s.upset = []) :
    (s.mscPlace l).mem = s.mem ∧ (s.mscPlace l).upset = [] := by
  rcases mscPlace_cases s l with e | ⟨m, e⟩ | e | ⟨old, m, e⟩ <;> rw [e]
  · exact toTier_clean s l h
  · rw [spoil_clean s l h]; exact ⟨rfl, h⟩
  · rw [spoil_clean s l h]; exact toTier_clean s l h
  · rw [spoil_clean s l h]; exact toTier_clean s old h

theorem l2Insert_clean (s : State) (l : Line) (h : s.upset = []) :
    (s.l2Insert l).mem = s.mem ∧ (s.l2Insert l).upset = [] := by
  rcases l2Insert_cases s l with e | ⟨m, e⟩ | ⟨old, m, e⟩ <;> rw [e]
  · exact ⟨rfl, h⟩
  · exact ⟨rfl, h⟩
  · exact mscPlace_clean { s with l2 := m } old h

theorem countPage_clean (s : State) (pa v : Nat) :
    (s.countPage pa v).mem = s.mem ∧ (s.countPage pa v).upset = s.upset := by
  simp only [State.countPage]
  split
  · exact ⟨rfl, rfl⟩
  · split <;> exact ⟨rfl, rfl⟩

theorem l2Touch_clean (s : State) (pa v tc : Nat) (acc : Access) (own : Option (Nat × Nat)) (h : s.upset = []) :
    (s.l2Touch pa v tc acc own).mem = s.mem ∧ (s.l2Touch pa v tc acc own).upset = [] := by
  obtain ⟨hm, hu⟩ := countPage_clean s pa v
  rw [h] at hu
  simp only [State.l2Touch]
  split
  · exact ⟨hm, hu⟩
  · split
    · next x _ =>
      have e := l2Insert_clean { s.countPage pa v with msc := (s.countPage pa v).msc.filter fun y => y.pa != pa / 512 }
      exact ⟨(e _ hu).1.trans hm, (e _ hu).2⟩
    · exact ⟨(l2Insert_clean _ _ hu).1.trans hm, (l2Insert_clean _ _ hu).2⟩

theorem l2TouchAll_clean (s : State) (pa n v tc : Nat) (acc : Access) (own : Option (Nat × Nat)) (h : s.upset = []) :
    (s.l2TouchAll pa n v tc acc own).mem = s.mem ∧ (s.l2TouchAll pa n v tc acc own).upset = [] := by
  simp only [State.l2TouchAll]
  induction (List.range ((pa + n + 127) / 128 - pa / 128)) generalizing s with
  | nil => exact ⟨rfl, h⟩
  | cons i t ih =>
    have e := l2Touch_clean s ((pa / 128 + i) * 128) v tc acc own h
    exact ⟨(ih _ e.2).1.trans e.1, (ih _ e.2).2⟩

/-- The first byte of an access that ranges hold lies in one of them. -/
theorem firstMet_mem (l : List (Nat × Nat)) (pa n : Nat) (h : firstMet l pa n ≠ n) :
    ∃ e ∈ l, e.1 < pa + firstMet l pa n + 1 ∧ pa + firstMet l pa n < e.1 + e.2 := by
  have key : ∀ (m : List (Nat × Nat)) (a : Nat),
      m.foldl (fun m e => min m (e.1 - pa)) a = a ∨ ∃ e ∈ m, m.foldl (fun m e => min m (e.1 - pa)) a = e.1 - pa := by
    intro m
    induction m with
    | nil => intro a; exact .inl rfl
    | cons x t ih =>
      intro a
      rcases ih (min a (x.1 - pa)) with g | ⟨e, he, g⟩
      · rw [List.foldl_cons, g]
        rcases Nat.le_total a (x.1 - pa) with c | c
        · exact .inl (Nat.min_eq_left c)
        · exact .inr ⟨x, List.mem_cons_self, Nat.min_eq_right c⟩
      · exact .inr ⟨e, List.mem_cons_of_mem _ he, by rw [List.foldl_cons, g]⟩
  rcases key (meets l pa n) n with g | ⟨e, he, g⟩
  · exact absurd g h
  · obtain ⟨hl, hm⟩ := List.mem_filter.1 he
    have := of_decide_eq_true hm
    exact ⟨e, hl, by rw [firstMet, g]; omega, by rw [firstMet, g]; omega⟩

/-- Where no error waits to be found, no read meets one. -/
theorem readCause_clean (s : State) (pa n : Nat) (h : s.upset = []) : s.readCause pa n ≠ 4 := by
  simp only [State.readCause]
  split
  · decide
  · next c =>
    obtain ⟨e, he, h12⟩ := firstMet_mem (s.lostRanges ++ (s.poison ++ s.upset).map fun x => (x * 128, 128)) pa n fun c' => c (beq_iff_eq.2 c')
    obtain ⟨h1, h2⟩ : e.1 < pa + s.firstBad pa n + 1 ∧ pa + s.firstBad pa n < e.1 + e.2 := h12
    rw [h, List.append_nil, List.mem_append] at he
    split
    · decide
    · next g =>
      have p : s.poisoned (pa + s.firstBad pa n) 1 = true := by
        rcases he with he | he
        · exact absurd (by
            simp only [State.gone, Bool.not_eq_true', List.isEmpty_eq_false_iff, ne_eq]
            exact List.ne_nil_of_mem (List.mem_filter.2 ⟨he, decide_eq_true ⟨h1, h2, by omega⟩⟩)) g
        · obtain ⟨x, hx, rfl⟩ := List.mem_map.1 he
          exact List.any_eq_true.2 ⟨x, hx, decide_eq_true ⟨h1, h2⟩⟩
      rw [p, if_pos rfl]
      decide

theorem homeRead_clean (s : State) (pa n v tc : Nat) (h : s.upset = []) :
    (s.homeRead pa n v tc).1.mem = s.mem ∧ (s.homeRead pa n v tc).1.upset = [] ∧
      (s.readCause pa n = 0 → (s.homeRead pa n v tc).2 = .ok (s.mem.readN pa n)) := by
  have hu := readCause_clean s pa n h
  simp only [State.homeRead]
  split
  · next e => exact ⟨(l2TouchAll_clean s pa n v tc .read none h).1, (l2TouchAll_clean s pa n v tc .read none h).2, fun _ => rfl⟩
  · next e => exact absurd e hu
  · next e _ => exact ⟨rfl, h, fun e' => absurd e' e⟩

theorem homeWrite_clean (s : State) (pa : Nat) (bs : List Byte) (v tc : Nat) (acc : Access) (own : Nat) (h : s.upset = [])
    (g : s.gone pa bs.length = false) :
    (s.homeWrite pa bs v tc acc own).mem = s.mem.writeN pa bs ∧ (s.homeWrite pa bs v tc acc own).upset = [] := by
  simp only [State.homeWrite, g, Bool.false_eq_true, if_false]
  exact l2TouchAll_clean _ _ _ _ _ _ _ (by simp [h])

/-! ## Every access keeps memory canonical -/

theorem hwWrite_wf (s : State) (pa : Nat) (bs : List Byte) (h : s.mem.wf = true) : (s.hwWrite pa bs).mem.wf = true :=
  wf_writeN _ _ _ h

theorem machineCheck_wf (s : State) (v pa kind ctx sect : Nat) (h : s.mem.wf = true) :
    (s.machineCheck v pa kind ctx sect).mem.wf = true := by
  rcases machineCheck_cases s v pa kind ctx sect with e | ⟨o, e⟩ | ⟨a, bs, e⟩ | ⟨a, b, as, bs, e⟩ <;> rw [e]
  · exact h
  · exact h
  · exact hwWrite_wf _ _ _ h
  · exact hwWrite_wf _ _ _ (hwWrite_wf _ _ _ h)

theorem spoil_wf (s : State) (l : Line) (h : s.mem.wf = true) : (s.spoil l).mem.wf = true := by
  simp only [State.spoil]
  split
  · exact h
  · exact machineCheck_wf _ _ _ _ _ _ h

theorem toTier_wf (s : State) (l : Line) (h : s.mem.wf = true) : (s.toTier l).mem.wf = true := by
  simp only [State.toTier]
  split
  · exact h
  · rw [(tierWrite_mem _ _).1]; exact spoil_wf s l h

theorem mscPlace_wf (s : State) (l : Line) (h : s.mem.wf = true) : (s.mscPlace l).mem.wf = true := by
  rcases mscPlace_cases s l with e | ⟨m, e⟩ | e | ⟨old, m, e⟩ <;> rw [e]
  · exact toTier_wf s l h
  · exact spoil_wf s l h
  · exact toTier_wf _ _ (spoil_wf s l h)
  · exact toTier_wf _ old (spoil_wf s l h)

theorem l2Insert_wf (s : State) (l : Line) (h : s.mem.wf = true) : (s.l2Insert l).mem.wf = true := by
  rcases l2Insert_cases s l with e | ⟨m, e⟩ | ⟨old, m, e⟩ <;> rw [e]
  · exact h
  · exact h
  · exact mscPlace_wf { s with l2 := m } old h

theorem l2Touch_wf (s : State) (pa v tc : Nat) (acc : Access) (own : Option (Nat × Nat)) (h : s.mem.wf = true) :
    (s.l2Touch pa v tc acc own).mem.wf = true := by
  have hm : (s.countPage pa v).mem.wf = true := by rw [(countPage_clean s pa v).1]; exact h
  simp only [State.l2Touch]
  split
  · exact hm
  · split <;> exact l2Insert_wf _ _ hm

theorem foldl_wf {α : Type} (f : State → α → State) (h : ∀ s a, s.mem.wf = true → (f s a).mem.wf = true) (l : List α)
    (s : State) (w : s.mem.wf = true) : (l.foldl f s).mem.wf = true := by
  induction l generalizing s with
  | nil => exact w
  | cons a t ih => exact ih _ (h s a w)

theorem l2TouchAll_wf (s : State) (pa n v tc : Nat) (acc : Access) (own : Option (Nat × Nat)) (h : s.mem.wf = true) :
    (s.l2TouchAll pa n v tc acc own).mem.wf = true := foldl_wf _ (fun s _ w => l2Touch_wf s _ _ _ _ _ w) _ _ h

theorem homeWrite_wf (s : State) (pa : Nat) (bs : List Byte) (v tc : Nat) (acc : Access) (own : Nat)
    (h : s.mem.wf = true) : (s.homeWrite pa bs v tc acc own).mem.wf = true := by
  simp only [State.homeWrite]
  split
  · exact h
  · exact l2TouchAll_wf _ _ _ _ _ _ _ (wf_writeN _ _ _ h)

theorem chargeRead_wf (s : State) (pa n v : Nat) (h : s.mem.wf = true) : (s.chargeRead pa n v).mem.wf = true :=
  foldl_wf _ (fun s _ w => machineCheck_wf s _ _ _ _ _ w) _ _ h

theorem homeRead_wf (s : State) (pa n v tc : Nat) (h : s.mem.wf = true) : (s.homeRead pa n v tc).1.mem.wf = true := by
  rw [State.homeRead]
  split
  · dsimp only; exact l2TouchAll_wf s pa n v tc .read none h
  · dsimp only; exact chargeRead_wf s _ _ _ h
  · exact h

theorem fillWalker_wf (s : State) (v va : Nat) (h : s.mem.wf = true) : (s.fillWalker v va).mem.wf = true := by
  simp only [State.fillWalker]
  split
  · exact h
  · exact foldl_wf (fun s (e : Nat × TlbEntry) => (s.homeRead e.1 8 v 0).1) (fun s _ w => homeRead_wf s _ _ _ _ w) _ _ h

theorem walked_wf (s : State) (tlb : List TlbEntry) (v va : Nat) (h : s.mem.wf = true) :
    (s.walked tlb v va).mem.wf = true := by
  simp only [State.walked]
  split
  · exact h
  · exact fillWalker_wf s v va h

theorem devReadL_wf (s : State) (tlb : List TlbEntry) (v : Nat) (user : Bool) (l : List (Nat × Nat))
    (h : s.mem.wf = true) : (s.devReadL tlb v user false l).1.mem.wf = true := by
  induction l generalizing s with
  | nil => rw [State.devReadL]; exact h
  | cons a t ih =>
    rw [State.devReadL]
    cases s.translate tlb v a.1 .r user with
    | error c => exact walked_wf s tlb v a.1 h
    | ok tr =>
      dsimp only
      have g := homeRead_wf (s.walked tlb v a.1) tr.pa a.2 v (fld tr.pte 8 7) (walked_wf s tlb v a.1 h)
      revert g
      generalize (s.walked tlb v a.1).homeRead tr.pa a.2 v (fld tr.pte 8 7) = r
      obtain ⟨u, r⟩ := r
      intro g
      cases r with
      | error c => exact g
      | ok bs =>
        dsimp only
        have e := ih u g
        revert e
        generalize u.devReadL tlb v user false t = q
        obtain ⟨w, q⟩ := q
        intro e
        cases q <;> exact e

theorem devWriteL_wf (s : State) (tlb : List TlbEntry) (v : Nat) (user : Bool) (own : Nat) (l : List (Nat × Nat))
    (bs : List Byte) (h : s.mem.wf = true) : (s.devWriteL tlb v user own false l bs).1.mem.wf = true := by
  induction l generalizing s bs with
  | nil => exact h
  | cons a t ih =>
    obtain ⟨va, k⟩ := a
    have w := walked_wf s tlb v va h
    simp only [State.devWriteL]
    split
    · exact w
    · split
      · exact w
      · exact ih _ _ (homeWrite_wf _ _ _ _ _ _ _ w)

theorem l1Found_wf (s : State) (n : Nat) (l : L1Line) (sectors : List Nat) (h : s.mem.wf = true) :
    (s.l1Found n l sectors).mem.wf = true := by
  simp only [State.l1Found]
  split
  · exact h
  · exact foldl_wf _ (fun s _ w => machineCheck_wf s _ _ _ _ _ w) _ _ h

theorem writeBytes_wf (s : State) (n : Nat) (l : L1Line) (sectors : List Nat) (h : s.mem.wf = true) :
    (s.writeBytes n l sectors).mem.wf = true := by
  simp only [State.writeBytes]
  split
  · exact h
  · refine foldl_wf _ (fun s _ w => l2Touch_wf s _ _ _ _ _ w) _ _ ?_
    split
    · exact foldl_wf _ (fun s _ w => wf_writeN _ _ _ w) _ _ h
    · exact machineCheck_wf _ _ _ _ _ _ (foldl_wf _ (fun s _ w => wf_writeN _ _ _ w) _ _ h)

theorem writeBack_wf (s : State) (n : Nat) (l : L1Line) (sectors : List Nat) (h : s.mem.wf = true) :
    (s.writeBack n l sectors).mem.wf = true := writeBytes_wf _ _ _ _ (l1Found_wf s n l sectors h)

end Sys2Proof.Machine
end

