-- ==== Sys2Proof/Laws/PerInstr.lean ====
section
/-! SUPPORT. Laws/PerInstr.lean: the operands of an instruction stay inside bits 21:0 of its word, so that its class and
operation read back as they were encoded (R36). -/

namespace Sys2Proof

theorem SSrc.code_lt (x : SSrc) : x.code < 128 := by
  cases x with
  | reg n t => have := n.isLt; have := Bool.toNat_lt t; simp only [SSrc.code]; omega
  | tap u d => have := d.isLt; have := Bool.toNat_lt u; simp only [SSrc.code]; omega

theorem VSrc.code_lt (x : VSrc) : x.code < 256 := by
  cases x with
  | reg n p t => have := n.isLt; have := p.isLt; have := Bool.toNat_lt t; simp only [VSrc.code]; omega
  | tap u d => have := u.isLt; have := d.isLt; simp only [VSrc.code]; omega

theorem VShort.code_lt (x : VShort) : x.code < 64 := by
  cases x with
  | reg n t => have := n.isLt; have := Bool.toNat_lt t; simp only [VShort.code]; omega
  | tap u d => have := u.isLt; have := d.isLt; simp only [VShort.code]; omega

theorem VDst.code_lt (x : VDst) : x.code < 32 := by
  cases x with
  | reg n => have := n.isLt; simp only [VDst.code]; omega
  | ring => decide

theorem Cond.code_lt (x : Cond) : x.code < 8 := by
  cases x <;> decide

theorem CvtFmt.code_lt (x : CvtFmt) : x.code < 8 := by
  cases x <;> decide

theorem Scope.code_lt (x : Scope) : x.code < 8 := by
  cases x <;> decide

theorem AmoOrder.code_lt (x : AmoOrder) : x.code < 4 := by
  cases x <;> decide

theorem Size.code_lt (x : Size) : x.code < 4 := by
  cases x <;> decide

theorem Shape.code_lt (x : Shape) : x.code < 4 := by
  cases x <;> decide

theorem TldWhere.code_lt (x : TldWhere) : x.code < 4 := by
  cases x <;> decide

theorem PhaseKind.code_lt (x : PhaseKind) : x.code < 4 := by
  cases x <;> decide

theorem TlbKind.code_lt (x : TlbKind) : x.code < 8 := by
  cases x <;> decide

theorem CacheKind.code_lt (x : CacheKind) : x.code < 8 := by
  cases x <;> decide

set_option Elab.async false

namespace Laws.Field

/-- R36: the word of an instruction is below 2^31, and its CLASS and OP fields are the instruction's own. -/
def Statement (i : Instr) : Prop :=
  ∀ w, encode i = some w → w < 2 ^ 31 ∧ i.opcode = some (fld w 30 28, fld w 27 22)

theorem noField {i : Instr} (h : i.opcode = none) : Statement i := by
  intro w hw
  simp [encode, h] at hw

theorem fieldOf {i : Instr} (c o : Nat) (h : i.opcode = some (c, o)) (hc : c < 8) (ho : o < 64)
    (hp : i.operands < 4194304) : Statement i := by
  intro w hw
  simp only [encode, h, Option.some.injEq] at hw
  subst hw
  refine ⟨by omega, ?_⟩
  rw [h]
  have e1 : fld (c * 268435456 + o * 4194304 + i.operands) 30 28 = c := by
    simp only [fld]; omega
  have e2 : fld (c * 268435456 + o * 4194304 + i.operands) 27 22 = o := by
    simp only [fld]; omega
  rw [e1, e2]

theorem bundleFetch (core : Nat) : Statement (.bundleFetch core) := noField rfl
theorem fixedLatencyLanding (core : Nat) (ctx : Nat) : Statement (.fixedLatencyLanding core ctx) := noField rfl
theorem nopS : Statement (.nopS) := fieldOf 0 0 rfl (by decide) (by decide) (by
   show 0 < 4194304; omega)
theorem add (d : BitVec 6) (a : SSrc) (b : SSrc) : Statement (.add d a b) := fieldOf 0 1 rfl (by decide) (by decide) (by
  have h0 := d.isLt; have h1 := SSrc.code_lt a; have h2 := SSrc.code_lt b; show d.toNat * 65536 + a.code * 512 + b.code * 4 < 4194304; omega)
theorem sub (d : BitVec 6) (a : SSrc) (b : SSrc) : Statement (.sub d a b) := fieldOf 0 2 rfl (by decide) (by decide) (by
  have h0 := d.isLt; have h1 := SSrc.code_lt a; have h2 := SSrc.code_lt b; show d.toNat * 65536 + a.code * 512 + b.code * 4 < 4194304; omega)
theorem addi (d : BitVec 6) (a : SSrc) (i : BitVec 9) : Statement (.addi d a i) := fieldOf 0 3 rfl (by decide) (by decide) (by
  have h0 := d.isLt; have h1 := SSrc.code_lt a; have h2 := i.isLt; show d.toNat * 65536 + a.code * 512 + i.toNat < 4194304; omega)
theorem mul (d : BitVec 6) (a : SSrc) (b : SSrc) : Statement (.mul d a b) := fieldOf 0 4 rfl (by decide) (by decide) (by
  have h0 := d.isLt; have h1 := SSrc.code_lt a; have h2 := SSrc.code_lt b; show d.toNat * 65536 + a.code * 512 + b.code * 4 < 4194304; omega)
theorem mulh (d : BitVec 6) (a : SSrc) (b : SSrc) : Statement (.mulh d a b) := fieldOf 0 5 rfl (by decide) (by decide) (by
  have h0 := d.isLt; have h1 := SSrc.code_lt a; have h2 := SSrc.code_lt b; show d.toNat * 65536 + a.code * 512 + b.code * 4 < 4194304; omega)
theorem mulhu (d : BitVec 6) (a : SSrc) (b : SSrc) : Statement (.mulhu d a b) := fieldOf 0 6 rfl (by decide) (by decide) (by
  have h0 := d.isLt; have h1 := SSrc.code_lt a; have h2 := SSrc.code_lt b; show d.toNat * 65536 + a.code * 512 + b.code * 4 < 4194304; omega)
theorem div (d : BitVec 6) (a : SSrc) (b : SSrc) : Statement (.div d a b) := fieldOf 0 7 rfl (by decide) (by decide) (by
  have h0 := d.isLt; have h1 := SSrc.code_lt a; have h2 := SSrc.code_lt b; show d.toNat * 65536 + a.code * 512 + b.code * 4 < 4194304; omega)
theorem divu (d : BitVec 6) (a : SSrc) (b : SSrc) : Statement (.divu d a b) := fieldOf 0 8 rfl (by decide) (by decide) (by
  have h0 := d.isLt; have h1 := SSrc.code_lt a; have h2 := SSrc.code_lt b; show d.toNat * 65536 + a.code * 512 + b.code * 4 < 4194304; omega)
theorem rem (d : BitVec 6) (a : SSrc) (b : SSrc) : Statement (.rem d a b) := fieldOf 0 9 rfl (by decide) (by decide) (by
  have h0 := d.isLt; have h1 := SSrc.code_lt a; have h2 := SSrc.code_lt b; show d.toNat * 65536 + a.code * 512 + b.code * 4 < 4194304; omega)
theorem remu (d : BitVec 6) (a : SSrc) (b : SSrc) : Statement (.remu d a b) := fieldOf 0 10 rfl (by decide) (by decide) (by
  have h0 := d.isLt; have h1 := SSrc.code_lt a; have h2 := SSrc.code_lt b; show d.toNat * 65536 + a.code * 512 + b.code * 4 < 4194304; omega)
theorem andS (d : BitVec 6) (a : SSrc) (b : SSrc) : Statement (.andS d a b) := fieldOf 0 11 rfl (by decide) (by decide) (by
  have h0 := d.isLt; have h1 := SSrc.code_lt a; have h2 := SSrc.code_lt b; show d.toNat * 65536 + a.code * 512 + b.code * 4 < 4194304; omega)
theorem orS (d : BitVec 6) (a : SSrc) (b : SSrc) : Statement (.orS d a b) := fieldOf 0 12 rfl (by decide) (by decide) (by
  have h0 := d.isLt; have h1 := SSrc.code_lt a; have h2 := SSrc.code_lt b; show d.toNat * 65536 + a.code * 512 + b.code * 4 < 4194304; omega)
theorem xorS (d : BitVec 6) (a : SSrc) (b : SSrc) : Statement (.xorS d a b) := fieldOf 0 13 rfl (by decide) (by decide) (by
  have h0 := d.isLt; have h1 := SSrc.code_lt a; have h2 := SSrc.code_lt b; show d.toNat * 65536 + a.code * 512 + b.code * 4 < 4194304; omega)
theorem andn (d : BitVec 6) (a : SSrc) (b : SSrc) : Statement (.andn d a b) := fieldOf 0 14 rfl (by decide) (by decide) (by
  have h0 := d.isLt; have h1 := SSrc.code_lt a; have h2 := SSrc.code_lt b; show d.toNat * 65536 + a.code * 512 + b.code * 4 < 4194304; omega)
theorem andi (d : BitVec 6) (a : SSrc) (i : BitVec 9) : Statement (.andi d a i) := fieldOf 0 15 rfl (by decide) (by decide) (by
  have h0 := d.isLt; have h1 := SSrc.code_lt a; have h2 := i.isLt; show d.toNat * 65536 + a.code * 512 + i.toNat < 4194304; omega)
theorem ori (d : BitVec 6) (a : SSrc) (i : BitVec 9) : Statement (.ori d a i) := fieldOf 0 16 rfl (by decide) (by decide) (by
  have h0 := d.isLt; have h1 := SSrc.code_lt a; have h2 := i.isLt; show d.toNat * 65536 + a.code * 512 + i.toNat < 4194304; omega)
theorem xori (d : BitVec 6) (a : SSrc) (i : BitVec 9) : Statement (.xori d a i) := fieldOf 0 17 rfl (by decide) (by decide) (by
  have h0 := d.isLt; have h1 := SSrc.code_lt a; have h2 := i.isLt; show d.toNat * 65536 + a.code * 512 + i.toNat < 4194304; omega)
theorem shl (d : BitVec 6) (a : SSrc) (b : SSrc) : Statement (.shl d a b) := fieldOf 0 18 rfl (by decide) (by decide) (by
  have h0 := d.isLt; have h1 := SSrc.code_lt a; have h2 := SSrc.code_lt b; show d.toNat * 65536 + a.code * 512 + b.code * 4 < 4194304; omega)
theorem shr (d : BitVec 6) (a : SSrc) (b : SSrc) : Statement (.shr d a b) := fieldOf 0 19 rfl (by decide) (by decide) (by
  have h0 := d.isLt; have h1 := SSrc.code_lt a; have h2 := SSrc.code_lt b; show d.toNat * 65536 + a.code * 512 + b.code * 4 < 4194304; omega)
theorem sar (d : BitVec 6) (a : SSrc) (b : SSrc) : Statement (.sar d a b) := fieldOf 0 20 rfl (by decide) (by decide) (by
  have h0 := d.isLt; have h1 := SSrc.code_lt a; have h2 := SSrc.code_lt b; show d.toNat * 65536 + a.code * 512 + b.code * 4 < 4194304; omega)
theorem shli (d : BitVec 6) (a : SSrc) (i : BitVec 6) : Statement (.shli d a i) := fieldOf 0 21 rfl (by decide) (by decide) (by
  have h0 := d.isLt; have h1 := SSrc.code_lt a; have h2 := i.isLt; show d.toNat * 65536 + a.code * 512 + i.toNat < 4194304; omega)
theorem shri (d : BitVec 6) (a : SSrc) (i : BitVec 6) : Statement (.shri d a i) := fieldOf 0 22 rfl (by decide) (by decide) (by
  have h0 := d.isLt; have h1 := SSrc.code_lt a; have h2 := i.isLt; show d.toNat * 65536 + a.code * 512 + i.toNat < 4194304; omega)
theorem sari (d : BitVec 6) (a : SSrc) (i : BitVec 6) : Statement (.sari d a i) := fieldOf 0 23 rfl (by decide) (by decide) (by
  have h0 := d.isLt; have h1 := SSrc.code_lt a; have h2 := i.isLt; show d.toNat * 65536 + a.code * 512 + i.toNat < 4194304; omega)
theorem clz (d : BitVec 6) (a : SSrc) : Statement (.clz d a) := fieldOf 0 24 rfl (by decide) (by decide) (by
  have h0 := d.isLt; have h1 := SSrc.code_lt a; show d.toNat * 65536 + a.code * 512 < 4194304; omega)
theorem ctz (d : BitVec 6) (a : SSrc) : Statement (.ctz d a) := fieldOf 0 25 rfl (by decide) (by decide) (by
  have h0 := d.isLt; have h1 := SSrc.code_lt a; show d.toNat * 65536 + a.code * 512 < 4194304; omega)
theorem popc (d : BitVec 6) (a : SSrc) : Statement (.popc d a) := fieldOf 0 26 rfl (by decide) (by decide) (by
  have h0 := d.isLt; have h1 := SSrc.code_lt a; show d.toNat * 65536 + a.code * 512 < 4194304; omega)
theorem extr (d : BitVec 6) (a : SSrc) (b : SSrc) : Statement (.extr d a b) := fieldOf 0 27 rfl (by decide) (by decide) (by
  have h0 := d.isLt; have h1 := SSrc.code_lt a; have h2 := SSrc.code_lt b; show d.toNat * 65536 + a.code * 512 + b.code * 4 < 4194304; omega)
theorem extru (d : BitVec 6) (a : SSrc) (b : SSrc) : Statement (.extru d a b) := fieldOf 0 28 rfl (by decide) (by decide) (by
  have h0 := d.isLt; have h1 := SSrc.code_lt a; have h2 := SSrc.code_lt b; show d.toNat * 65536 + a.code * 512 + b.code * 4 < 4194304; omega)
theorem ins (d : BitVec 6) (a : SSrc) (b : SSrc) : Statement (.ins d a b) := fieldOf 0 29 rfl (by decide) (by decide) (by
  have h0 := d.isLt; have h1 := SSrc.code_lt a; have h2 := SSrc.code_lt b; show d.toNat * 65536 + a.code * 512 + b.code * 4 < 4194304; omega)
theorem minS (d : BitVec 6) (a : SSrc) (b : SSrc) : Statement (.minS d a b) := fieldOf 0 30 rfl (by decide) (by decide) (by
  have h0 := d.isLt; have h1 := SSrc.code_lt a; have h2 := SSrc.code_lt b; show d.toNat * 65536 + a.code * 512 + b.code * 4 < 4194304; omega)
theorem maxS (d : BitVec 6) (a : SSrc) (b : SSrc) : Statement (.maxS d a b) := fieldOf 0 31 rfl (by decide) (by decide) (by
  have h0 := d.isLt; have h1 := SSrc.code_lt a; have h2 := SSrc.code_lt b; show d.toNat * 65536 + a.code * 512 + b.code * 4 < 4194304; omega)
theorem minu (d : BitVec 6) (a : SSrc) (b : SSrc) : Statement (.minu d a b) := fieldOf 0 32 rfl (by decide) (by decide) (by
  have h0 := d.isLt; have h1 := SSrc.code_lt a; have h2 := SSrc.code_lt b; show d.toNat * 65536 + a.code * 512 + b.code * 4 < 4194304; omega)
theorem maxu (d : BitVec 6) (a : SSrc) (b : SSrc) : Statement (.maxu d a b) := fieldOf 0 33 rfl (by decide) (by decide) (by
  have h0 := d.isLt; have h1 := SSrc.code_lt a; have h2 := SSrc.code_lt b; show d.toNat * 65536 + a.code * 512 + b.code * 4 < 4194304; omega)
theorem movi (d : BitVec 6) (i : BitVec 16) : Statement (.movi d i) := fieldOf 0 34 rfl (by decide) (by decide) (by
  have h0 := d.isLt; have h1 := i.isLt; show d.toNat * 65536 + i.toNat < 4194304; omega)
theorem movhi (d : BitVec 6) (i : BitVec 16) : Statement (.movhi d i) := fieldOf 0 35 rfl (by decide) (by decide) (by
  have h0 := d.isLt; have h1 := i.isLt; show d.toNat * 65536 + i.toNat < 4194304; omega)
theorem selP0P3 (d : BitVec 6) (a : SSrc) (b : SSrc) (p : BitVec 2) : Statement (.selP0P3 d a b p) := fieldOf 0 36 rfl (by decide) (by decide) (by
  have h0 := d.isLt; have h1 := SSrc.code_lt a; have h2 := SSrc.code_lt b; have h3 := p.isLt; show d.toNat * 65536 + a.code * 512 + b.code * 4 + p.toNat < 4194304; omega)
theorem selP4P7 (d : BitVec 6) (a : SSrc) (b : SSrc) (p : BitVec 2) : Statement (.selP4P7 d a b p) := fieldOf 0 37 rfl (by decide) (by decide) (by
  have h0 := d.isLt; have h1 := SSrc.code_lt a; have h2 := SSrc.code_lt b; have h3 := p.isLt; show d.toNat * 65536 + a.code * 512 + b.code * 4 + p.toNat < 4194304; omega)
theorem lea (d : BitVec 6) (a : SSrc) (b : SSrc) (h : BitVec 2) : Statement (.lea d a b h) := fieldOf 0 38 rfl (by decide) (by decide) (by
  have h0 := d.isLt; have h1 := SSrc.code_lt a; have h2 := SSrc.code_lt b; have h3 := h.isLt; show d.toNat * 65536 + a.code * 512 + b.code * 4 + h.toNat < 4194304; omega)
theorem cmp (p : BitVec 3) (c : Cond) (a : SSrc) (b : SSrc) : Statement (.cmp p c a b) := fieldOf 0 39 rfl (by decide) (by decide) (by
  have h0 := p.isLt; have h1 := Cond.code_lt c; have h2 := SSrc.code_lt a; have h3 := SSrc.code_lt b; show p.toNat * 524288 + c.code * 65536 + a.code * 512 + b.code * 4 < 4194304; omega)
theorem cmpi (p : BitVec 3) (c : Cond) (a : SSrc) (i : BitVec 9) : Statement (.cmpi p c a i) := fieldOf 0 40 rfl (by decide) (by decide) (by
  have h0 := p.isLt; have h1 := Cond.code_lt c; have h2 := SSrc.code_lt a; have h3 := i.isLt; show p.toNat * 524288 + c.code * 65536 + a.code * 512 + i.toNat < 4194304; omega)
theorem pand (p : BitVec 3) (q : BitVec 3) (r : BitVec 3) : Statement (.pand p q r) := fieldOf 0 41 rfl (by decide) (by decide) (by
  have h0 := p.isLt; have h1 := q.isLt; have h2 := r.isLt; show p.toNat * 524288 + q.toNat * 65536 + r.toNat * 8192 < 4194304; omega)
theorem por (p : BitVec 3) (q : BitVec 3) (r : BitVec 3) : Statement (.por p q r) := fieldOf 0 42 rfl (by decide) (by decide) (by
  have h0 := p.isLt; have h1 := q.isLt; have h2 := r.isLt; show p.toNat * 524288 + q.toNat * 65536 + r.toNat * 8192 < 4194304; omega)
theorem pxor (p : BitVec 3) (q : BitVec 3) (r : BitVec 3) : Statement (.pxor p q r) := fieldOf 0 43 rfl (by decide) (by decide) (by
  have h0 := p.isLt; have h1 := q.isLt; have h2 := r.isLt; show p.toNat * 524288 + q.toNat * 65536 + r.toNat * 8192 < 4194304; omega)
theorem pnot (p : BitVec 3) (q : BitVec 3) : Statement (.pnot p q) := fieldOf 0 44 rfl (by decide) (by decide) (by
  have h0 := p.isLt; have h1 := q.isLt; show p.toNat * 524288 + q.toNat * 65536 < 4194304; omega)
theorem sfadd (d : BitVec 6) (a : SSrc) (b : SSrc) : Statement (.sfadd d a b) := fieldOf 0 45 rfl (by decide) (by decide) (by
  have h0 := d.isLt; have h1 := SSrc.code_lt a; have h2 := SSrc.code_lt b; show d.toNat * 65536 + a.code * 512 + b.code * 4 < 4194304; omega)
theorem sfmul (d : BitVec 6) (a : SSrc) (b : SSrc) : Statement (.sfmul d a b) := fieldOf 0 46 rfl (by decide) (by decide) (by
  have h0 := d.isLt; have h1 := SSrc.code_lt a; have h2 := SSrc.code_lt b; show d.toNat * 65536 + a.code * 512 + b.code * 4 < 4194304; omega)
theorem sfma (d : BitVec 6) (a : SSrc) (b : SSrc) : Statement (.sfma d a b) := fieldOf 0 47 rfl (by decide) (by decide) (by
  have h0 := d.isLt; have h1 := SSrc.code_lt a; have h2 := SSrc.code_lt b; show d.toNat * 65536 + a.code * 512 + b.code * 4 < 4194304; omega)
theorem sfcvt (d : BitVec 6) (a : SSrc) (f : CvtFmt) (g : CvtFmt) (u : Bool) : Statement (.sfcvt d a f g u) := fieldOf 0 48 rfl (by decide) (by decide) (by
  have h0 := d.isLt; have h1 := SSrc.code_lt a; have h2 := CvtFmt.code_lt f; have h3 := CvtFmt.code_lt g; have h4 := Bool.toNat_lt u; show d.toNat * 65536 + a.code * 512 + f.code * 32 + g.code * 2 + u.toNat < 4194304; omega)
theorem nopV : Statement (.nopV) := fieldOf 1 0 rfl (by decide) (by decide) (by
   show 0 < 4194304; omega)
theorem vaddF32 (d : VDst) (a : VSrc) (b : VSrc) : Statement (.vaddF32 d a b) := fieldOf 1 1 rfl (by decide) (by decide) (by
  have h0 := VDst.code_lt d; have h1 := VSrc.code_lt a; have h2 := VSrc.code_lt b; show d.code * 131072 + a.code * 512 + b.code * 2 < 4194304; omega)
theorem vsubF32 (d : VDst) (a : VSrc) (b : VSrc) : Statement (.vsubF32 d a b) := fieldOf 1 2 rfl (by decide) (by decide) (by
  have h0 := VDst.code_lt d; have h1 := VSrc.code_lt a; have h2 := VSrc.code_lt b; show d.code * 131072 + a.code * 512 + b.code * 2 < 4194304; omega)
theorem vmulF32 (d : VDst) (a : VSrc) (b : VSrc) : Statement (.vmulF32 d a b) := fieldOf 1 3 rfl (by decide) (by decide) (by
  have h0 := VDst.code_lt d; have h1 := VSrc.code_lt a; have h2 := VSrc.code_lt b; show d.code * 131072 + a.code * 512 + b.code * 2 < 4194304; omega)
theorem vfmaF32 (d : BitVec 4) (a : VSrc) (b : VSrc) : Statement (.vfmaF32 d a b) := fieldOf 1 4 rfl (by decide) (by decide) (by
  have h0 := d.isLt; have h1 := VSrc.code_lt a; have h2 := VSrc.code_lt b; show d.toNat * 131072 + a.code * 512 + b.code * 2 < 4194304; omega)
theorem vfmsF32 (d : BitVec 4) (a : VSrc) (b : VSrc) : Statement (.vfmsF32 d a b) := fieldOf 1 5 rfl (by decide) (by decide) (by
  have h0 := d.isLt; have h1 := VSrc.code_lt a; have h2 := VSrc.code_lt b; show d.toNat * 131072 + a.code * 512 + b.code * 2 < 4194304; omega)
theorem vmaxF32 (d : VDst) (a : VSrc) (b : VSrc) : Statement (.vmaxF32 d a b) := fieldOf 1 6 rfl (by decide) (by decide) (by
  have h0 := VDst.code_lt d; have h1 := VSrc.code_lt a; have h2 := VSrc.code_lt b; show d.code * 131072 + a.code * 512 + b.code * 2 < 4194304; omega)
theorem vminF32 (d : VDst) (a : VSrc) (b : VSrc) : Statement (.vminF32 d a b) := fieldOf 1 7 rfl (by decide) (by decide) (by
  have h0 := VDst.code_lt d; have h1 := VSrc.code_lt a; have h2 := VSrc.code_lt b; show d.code * 131072 + a.code * 512 + b.code * 2 < 4194304; omega)
theorem vabsF32 (d : VDst) (a : VSrc) : Statement (.vabsF32 d a) := fieldOf 1 8 rfl (by decide) (by decide) (by
  have h0 := VDst.code_lt d; have h1 := VSrc.code_lt a; show d.code * 131072 + a.code * 512 < 4194304; omega)
theorem vnegF32 (d : VDst) (a : VSrc) : Statement (.vnegF32 d a) := fieldOf 1 9 rfl (by decide) (by decide) (by
  have h0 := VDst.code_lt d; have h1 := VSrc.code_lt a; show d.code * 131072 + a.code * 512 < 4194304; omega)
theorem vaddBf16 (d : VDst) (a : VSrc) (b : VSrc) : Statement (.vaddBf16 d a b) := fieldOf 1 10 rfl (by decide) (by decide) (by
  have h0 := VDst.code_lt d; have h1 := VSrc.code_lt a; have h2 := VSrc.code_lt b; show d.code * 131072 + a.code * 512 + b.code * 2 < 4194304; omega)
theorem vmulBf16 (d : VDst) (a : VSrc) (b : VSrc) : Statement (.vmulBf16 d a b) := fieldOf 1 11 rfl (by decide) (by decide) (by
  have h0 := VDst.code_lt d; have h1 := VSrc.code_lt a; have h2 := VSrc.code_lt b; show d.code * 131072 + a.code * 512 + b.code * 2 < 4194304; omega)
theorem vfmaBf16 (d : BitVec 4) (a : VSrc) (b : VSrc) : Statement (.vfmaBf16 d a b) := fieldOf 1 12 rfl (by decide) (by decide) (by
  have h0 := d.isLt; have h1 := VSrc.code_lt a; have h2 := VSrc.code_lt b; show d.toNat * 131072 + a.code * 512 + b.code * 2 < 4194304; omega)
theorem vmaxBf16 (d : VDst) (a : VSrc) (b : VSrc) : Statement (.vmaxBf16 d a b) := fieldOf 1 13 rfl (by decide) (by decide) (by
  have h0 := VDst.code_lt d; have h1 := VSrc.code_lt a; have h2 := VSrc.code_lt b; show d.code * 131072 + a.code * 512 + b.code * 2 < 4194304; omega)
theorem vminBf16 (d : VDst) (a : VSrc) (b : VSrc) : Statement (.vminBf16 d a b) := fieldOf 1 14 rfl (by decide) (by decide) (by
  have h0 := VDst.code_lt d; have h1 := VSrc.code_lt a; have h2 := VSrc.code_lt b; show d.code * 131072 + a.code * 512 + b.code * 2 < 4194304; omega)
theorem vaddF16 (d : VDst) (a : VSrc) (b : VSrc) : Statement (.vaddF16 d a b) := fieldOf 1 15 rfl (by decide) (by decide) (by
  have h0 := VDst.code_lt d; have h1 := VSrc.code_lt a; have h2 := VSrc.code_lt b; show d.code * 131072 + a.code * 512 + b.code * 2 < 4194304; omega)
theorem vmulF16 (d : VDst) (a : VSrc) (b : VSrc) : Statement (.vmulF16 d a b) := fieldOf 1 16 rfl (by decide) (by decide) (by
  have h0 := VDst.code_lt d; have h1 := VSrc.code_lt a; have h2 := VSrc.code_lt b; show d.code * 131072 + a.code * 512 + b.code * 2 < 4194304; omega)
theorem vfmaF16 (d : BitVec 4) (a : VSrc) (b : VSrc) : Statement (.vfmaF16 d a b) := fieldOf 1 17 rfl (by decide) (by decide) (by
  have h0 := d.isLt; have h1 := VSrc.code_lt a; have h2 := VSrc.code_lt b; show d.toNat * 131072 + a.code * 512 + b.code * 2 < 4194304; omega)
theorem vmaxF16 (d : VDst) (a : VSrc) (b : VSrc) : Statement (.vmaxF16 d a b) := fieldOf 1 18 rfl (by decide) (by decide) (by
  have h0 := VDst.code_lt d; have h1 := VSrc.code_lt a; have h2 := VSrc.code_lt b; show d.code * 131072 + a.code * 512 + b.code * 2 < 4194304; omega)
theorem vminF16 (d : VDst) (a : VSrc) (b : VSrc) : Statement (.vminF16 d a b) := fieldOf 1 19 rfl (by decide) (by decide) (by
  have h0 := VDst.code_lt d; have h1 := VSrc.code_lt a; have h2 := VSrc.code_lt b; show d.code * 131072 + a.code * 512 + b.code * 2 < 4194304; omega)
theorem vaddI32 (d : VDst) (a : VSrc) (b : VSrc) : Statement (.vaddI32 d a b) := fieldOf 1 20 rfl (by decide) (by decide) (by
  have h0 := VDst.code_lt d; have h1 := VSrc.code_lt a; have h2 := VSrc.code_lt b; show d.code * 131072 + a.code * 512 + b.code * 2 < 4194304; omega)
theorem vsubI32 (d : VDst) (a : VSrc) (b : VSrc) : Statement (.vsubI32 d a b) := fieldOf 1 21 rfl (by decide) (by decide) (by
  have h0 := VDst.code_lt d; have h1 := VSrc.code_lt a; have h2 := VSrc.code_lt b; show d.code * 131072 + a.code * 512 + b.code * 2 < 4194304; omega)
theorem vmulI32 (d : VDst) (a : VSrc) (b : VSrc) : Statement (.vmulI32 d a b) := fieldOf 1 22 rfl (by decide) (by decide) (by
  have h0 := VDst.code_lt d; have h1 := VSrc.code_lt a; have h2 := VSrc.code_lt b; show d.code * 131072 + a.code * 512 + b.code * 2 < 4194304; omega)
theorem vmaxI32 (d : VDst) (a : VSrc) (b : VSrc) : Statement (.vmaxI32 d a b) := fieldOf 1 23 rfl (by decide) (by decide) (by
  have h0 := VDst.code_lt d; have h1 := VSrc.code_lt a; have h2 := VSrc.code_lt b; show d.code * 131072 + a.code * 512 + b.code * 2 < 4194304; omega)
theorem vminI32 (d : VDst) (a : VSrc) (b : VSrc) : Statement (.vminI32 d a b) := fieldOf 1 24 rfl (by decide) (by decide) (by
  have h0 := VDst.code_lt d; have h1 := VSrc.code_lt a; have h2 := VSrc.code_lt b; show d.code * 131072 + a.code * 512 + b.code * 2 < 4194304; omega)
theorem vandI32 (d : VDst) (a : VSrc) (b : VSrc) : Statement (.vandI32 d a b) := fieldOf 1 25 rfl (by decide) (by decide) (by
  have h0 := VDst.code_lt d; have h1 := VSrc.code_lt a; have h2 := VSrc.code_lt b; show d.code * 131072 + a.code * 512 + b.code * 2 < 4194304; omega)
theorem vorI32 (d : VDst) (a : VSrc) (b : VSrc) : Statement (.vorI32 d a b) := fieldOf 1 26 rfl (by decide) (by decide) (by
  have h0 := VDst.code_lt d; have h1 := VSrc.code_lt a; have h2 := VSrc.code_lt b; show d.code * 131072 + a.code * 512 + b.code * 2 < 4194304; omega)
theorem vxorI32 (d : VDst) (a : VSrc) (b : VSrc) : Statement (.vxorI32 d a b) := fieldOf 1 27 rfl (by decide) (by decide) (by
  have h0 := VDst.code_lt d; have h1 := VSrc.code_lt a; have h2 := VSrc.code_lt b; show d.code * 131072 + a.code * 512 + b.code * 2 < 4194304; omega)
theorem vandnI32 (d : VDst) (a : VSrc) (b : VSrc) : Statement (.vandnI32 d a b) := fieldOf 1 28 rfl (by decide) (by decide) (by
  have h0 := VDst.code_lt d; have h1 := VSrc.code_lt a; have h2 := VSrc.code_lt b; show d.code * 131072 + a.code * 512 + b.code * 2 < 4194304; omega)
theorem vshlI32 (d : VDst) (a : VSrc) (b : VSrc) : Statement (.vshlI32 d a b) := fieldOf 1 29 rfl (by decide) (by decide) (by
  have h0 := VDst.code_lt d; have h1 := VSrc.code_lt a; have h2 := VSrc.code_lt b; show d.code * 131072 + a.code * 512 + b.code * 2 < 4194304; omega)
theorem vshrI32 (d : VDst) (a : VSrc) (b : VSrc) : Statement (.vshrI32 d a b) := fieldOf 1 30 rfl (by decide) (by decide) (by
  have h0 := VDst.code_lt d; have h1 := VSrc.code_lt a; have h2 := VSrc.code_lt b; show d.code * 131072 + a.code * 512 + b.code * 2 < 4194304; omega)
theorem vsarI32 (d : VDst) (a : VSrc) (b : VSrc) : Statement (.vsarI32 d a b) := fieldOf 1 31 rfl (by decide) (by decide) (by
  have h0 := VDst.code_lt d; have h1 := VSrc.code_lt a; have h2 := VSrc.code_lt b; show d.code * 131072 + a.code * 512 + b.code * 2 < 4194304; omega)
theorem vcmpEqF32 (d : VDst) (a : VSrc) (b : VSrc) : Statement (.vcmpEqF32 d a b) := fieldOf 1 32 rfl (by decide) (by decide) (by
  have h0 := VDst.code_lt d; have h1 := VSrc.code_lt a; have h2 := VSrc.code_lt b; show d.code * 131072 + a.code * 512 + b.code * 2 < 4194304; omega)
theorem vcmpLtF32 (d : VDst) (a : VSrc) (b : VSrc) : Statement (.vcmpLtF32 d a b) := fieldOf 1 33 rfl (by decide) (by decide) (by
  have h0 := VDst.code_lt d; have h1 := VSrc.code_lt a; have h2 := VSrc.code_lt b; show d.code * 131072 + a.code * 512 + b.code * 2 < 4194304; omega)
theorem vcmpLeF32 (d : VDst) (a : VSrc) (b : VSrc) : Statement (.vcmpLeF32 d a b) := fieldOf 1 34 rfl (by decide) (by decide) (by
  have h0 := VDst.code_lt d; have h1 := VSrc.code_lt a; have h2 := VSrc.code_lt b; show d.code * 131072 + a.code * 512 + b.code * 2 < 4194304; omega)
theorem vcmpEqI32 (d : VDst) (a : VSrc) (b : VSrc) : Statement (.vcmpEqI32 d a b) := fieldOf 1 35 rfl (by decide) (by decide) (by
  have h0 := VDst.code_lt d; have h1 := VSrc.code_lt a; have h2 := VSrc.code_lt b; show d.code * 131072 + a.code * 512 + b.code * 2 < 4194304; omega)
theorem vcmpLtI32 (d : VDst) (a : VSrc) (b : VSrc) : Statement (.vcmpLtI32 d a b) := fieldOf 1 36 rfl (by decide) (by decide) (by
  have h0 := VDst.code_lt d; have h1 := VSrc.code_lt a; have h2 := VSrc.code_lt b; show d.code * 131072 + a.code * 512 + b.code * 2 < 4194304; omega)
theorem vcmpLeI32 (d : VDst) (a : VSrc) (b : VSrc) : Statement (.vcmpLeI32 d a b) := fieldOf 1 37 rfl (by decide) (by decide) (by
  have h0 := VDst.code_lt d; have h1 := VSrc.code_lt a; have h2 := VSrc.code_lt b; show d.code * 131072 + a.code * 512 + b.code * 2 < 4194304; omega)
theorem vsel (d : BitVec 4) (a : VSrc) (b : VSrc) : Statement (.vsel d a b) := fieldOf 1 38 rfl (by decide) (by decide) (by
  have h0 := d.isLt; have h1 := VSrc.code_lt a; have h2 := VSrc.code_lt b; show d.toNat * 131072 + a.code * 512 + b.code * 2 < 4194304; omega)
theorem vbcast (d : VDst) (a : SSrc) : Statement (.vbcast d a) := fieldOf 1 39 rfl (by decide) (by decide) (by
  have h0 := VDst.code_lt d; have h1 := SSrc.code_lt a; show d.code * 131072 + a.code * 1024 < 4194304; omega)
theorem vmovs (d : BitVec 4) (a : SSrc) (l : BitVec 7) : Statement (.vmovs d a l) := fieldOf 1 40 rfl (by decide) (by decide) (by
  have h0 := d.isLt; have h1 := SSrc.code_lt a; have h2 := l.isLt; show d.toNat * 131072 + a.code * 1024 + l.toNat * 8 < 4194304; omega)
theorem vidx (d : VDst) (a : SSrc) : Statement (.vidx d a) := fieldOf 1 41 rfl (by decide) (by decide) (by
  have h0 := VDst.code_lt d; have h1 := SSrc.code_lt a; show d.code * 131072 + a.code * 1024 < 4194304; omega)
theorem vcvt (d : VDst) (a : VSrc) (f : CvtFmt) (g : CvtFmt) (u : Bool) : Statement (.vcvt d a f g u) := fieldOf 1 42 rfl (by decide) (by decide) (by
  have h0 := VDst.code_lt d; have h1 := VSrc.code_lt a; have h2 := CvtFmt.code_lt f; have h3 := CvtFmt.code_lt g; have h4 := Bool.toNat_lt u; show d.code * 131072 + a.code * 512 + f.code * 32 + g.code * 2 + u.toNat < 4194304; omega)
theorem vrcpF32 (d : VDst) (a : VSrc) : Statement (.vrcpF32 d a) := fieldOf 1 43 rfl (by decide) (by decide) (by
  have h0 := VDst.code_lt d; have h1 := VSrc.code_lt a; show d.code * 131072 + a.code * 512 < 4194304; omega)
theorem vrsqF32 (d : VDst) (a : VSrc) : Statement (.vrsqF32 d a) := fieldOf 1 44 rfl (by decide) (by decide) (by
  have h0 := VDst.code_lt d; have h1 := VSrc.code_lt a; show d.code * 131072 + a.code * 512 < 4194304; omega)
theorem vexp2F32 (d : VDst) (a : VSrc) : Statement (.vexp2F32 d a) := fieldOf 1 45 rfl (by decide) (by decide) (by
  have h0 := VDst.code_lt d; have h1 := VSrc.code_lt a; show d.code * 131072 + a.code * 512 < 4194304; omega)
theorem vlog2F32 (d : VDst) (a : VSrc) : Statement (.vlog2F32 d a) := fieldOf 1 46 rfl (by decide) (by decide) (by
  have h0 := VDst.code_lt d; have h1 := VSrc.code_lt a; show d.code * 131072 + a.code * 512 < 4194304; omega)
theorem vtanhF32 (d : VDst) (a : VSrc) : Statement (.vtanhF32 d a) := fieldOf 1 47 rfl (by decide) (by decide) (by
  have h0 := VDst.code_lt d; have h1 := VSrc.code_lt a; show d.code * 131072 + a.code * 512 < 4194304; omega)
theorem vsigF32 (d : VDst) (a : VSrc) : Statement (.vsigF32 d a) := fieldOf 1 48 rfl (by decide) (by decide) (by
  have h0 := VDst.code_lt d; have h1 := VSrc.code_lt a; show d.code * 131072 + a.code * 512 < 4194304; omega)
theorem vredAdd (d : VDst) (a : VSrc) (y : Bool) : Statement (.vredAdd d a y) := fieldOf 1 49 rfl (by decide) (by decide) (by
  have h0 := VDst.code_lt d; have h1 := VSrc.code_lt a; have h2 := Bool.toNat_lt y; show d.code * 131072 + a.code * 512 + y.toNat < 4194304; omega)
theorem vredMax (d : VDst) (a : VSrc) (y : Bool) : Statement (.vredMax d a y) := fieldOf 1 50 rfl (by decide) (by decide) (by
  have h0 := VDst.code_lt d; have h1 := VSrc.code_lt a; have h2 := Bool.toNat_lt y; show d.code * 131072 + a.code * 512 + y.toNat < 4194304; omega)
theorem vredMin (d : VDst) (a : VSrc) (y : Bool) : Statement (.vredMin d a y) := fieldOf 1 51 rfl (by decide) (by decide) (by
  have h0 := VDst.code_lt d; have h1 := VSrc.code_lt a; have h2 := Bool.toNat_lt y; show d.code * 131072 + a.code * 512 + y.toNat < 4194304; omega)
theorem vscanAdd (d : VDst) (a : VSrc) (y : Bool) : Statement (.vscanAdd d a y) := fieldOf 1 52 rfl (by decide) (by decide) (by
  have h0 := VDst.code_lt d; have h1 := VSrc.code_lt a; have h2 := Bool.toNat_lt y; show d.code * 131072 + a.code * 512 + y.toNat < 4194304; omega)
theorem vshufLo (d : VDst) (n : BitVec 5) (a : VShort) (b : VShort) : Statement (.vshufLo d n a b) := fieldOf 1 53 rfl (by decide) (by decide) (by
  have h0 := VDst.code_lt d; have h1 := n.isLt; have h2 := VShort.code_lt a; have h3 := VShort.code_lt b; show d.code * 131072 + n.toNat * 4096 + a.code * 64 + b.code < 4194304; omega)
theorem vshufHi (d : VDst) (n : BitVec 5) (a : VShort) (b : VShort) : Statement (.vshufHi d n a b) := fieldOf 1 54 rfl (by decide) (by decide) (by
  have h0 := VDst.code_lt d; have h1 := n.isLt; have h2 := VShort.code_lt a; have h3 := VShort.code_lt b; show d.code * 131072 + n.toNat * 4096 + a.code * 64 + b.code < 4194304; omega)
theorem nopM : Statement (.nopM) := fieldOf 2 0 rfl (by decide) (by decide) (by
   show 0 < 4194304; omega)
theorem mpush (p : Bool) : Statement (.mpush p) := fieldOf 2 1 rfl (by decide) (by decide) (by
  have h0 := Bool.toNat_lt p; show p.toNat * 2097152 < 4194304; omega)
theorem mswap : Statement (.mswap) := fieldOf 2 2 rfl (by decide) (by decide) (by
   show 0 < 4194304; omega)
theorem macc (p : Bool) (n : Bool) (q : BitVec 7) : Statement (.macc p n q) := fieldOf 2 3 rfl (by decide) (by decide) (by
  have h0 := Bool.toNat_lt p; have h1 := Bool.toNat_lt n; have h2 := q.isLt; show p.toNat * 2097152 + n.toNat * 1048576 + q.toNat * 8192 < 4194304; omega)
theorem maccG (n : Bool) (q : BitVec 7) (a : VSrc) : Statement (.maccG n q a) := fieldOf 2 4 rfl (by decide) (by decide) (by
  have h0 := Bool.toNat_lt n; have h1 := q.isLt; have h2 := VSrc.code_lt a; show n.toNat * 1048576 + q.toNat * 8192 + a.code * 32 < 4194304; omega)
theorem mdrain (h : Shape) (n : Bool) (i : BitVec 7) (d : VDst) (f : CvtFmt) (u : Bool) : Statement (.mdrain h n i d f u) := fieldOf 2 5 rfl (by decide) (by decide) (by
  have h0 := Shape.code_lt h; have h1 := Bool.toNat_lt n; have h2 := i.isLt; have h3 := VDst.code_lt d; have h4 := CvtFmt.code_lt f; have h5 := Bool.toNat_lt u; show h.code * 1048576 + n.toNat * 524288 + i.toNat * 4096 + d.code * 128 + f.code * 16 + u.toNat * 8 < 4194304; omega)
theorem mzero (n : Bool) (f : BitVec 7) (c : BitVec 7) : Statement (.mzero n f c) := fieldOf 2 6 rfl (by decide) (by decide) (by
  have h0 := Bool.toNat_lt n; have h1 := f.isLt; have h2 := c.isLt; show n.toNat * 2097152 + f.toNat * 16384 + c.toNat * 128 < 4194304; omega)
theorem mcfg (a : SSrc) : Statement (.mcfg a) := fieldOf 2 7 rfl (by decide) (by decide) (by
  have h0 := SSrc.code_lt a; show a.code * 32768 < 4194304; omega)
theorem mrun (s : BitVec 8) (a : SSrc) (l : BitVec 7) : Statement (.mrun s a l) := fieldOf 2 8 rfl (by decide) (by decide) (by
  have h0 := s.isLt; have h1 := SSrc.code_lt a; have h2 := l.isLt; show s.toNat * 16384 + a.code * 128 + l.toNat < 4194304; omega)
theorem playedBeat (core : Nat) : Statement (.playedBeat core) := noField rfl
theorem nopL : Statement (.nopL) := fieldOf 3 0 rfl (by decide) (by decide) (by
   show 0 < 4194304; omega)
theorem lds (d : BitVec 6) (a : SSrc) (i : BitVec 7) (z : Size) : Statement (.lds d a i z) := fieldOf 3 1 rfl (by decide) (by decide) (by
  have h0 := d.isLt; have h1 := SSrc.code_lt a; have h2 := i.isLt; have h3 := Size.code_lt z; show d.toNat * 65536 + a.code * 512 + i.toNat * 4 + z.code < 4194304; omega)
theorem ldsS (d : BitVec 6) (a : SSrc) (i : BitVec 7) (z : Size) : Statement (.ldsS d a i z) := fieldOf 3 2 rfl (by decide) (by decide) (by
  have h0 := d.isLt; have h1 := SSrc.code_lt a; have h2 := i.isLt; have h3 := Size.code_lt z; show d.toNat * 65536 + a.code * 512 + i.toNat * 4 + z.code < 4194304; omega)
theorem sts (a : SSrc) (b : SSrc) (i : BitVec 6) (z : Size) : Statement (.sts a b i z) := fieldOf 3 3 rfl (by decide) (by decide) (by
  have h0 := SSrc.code_lt a; have h1 := SSrc.code_lt b; have h2 := i.isLt; have h3 := Size.code_lt z; show a.code * 32768 + b.code * 256 + i.toNat * 4 + z.code < 4194304; omega)
theorem ldv (d : VDst) (a : SSrc) (i : BitVec 10) : Statement (.ldv d a i) := fieldOf 3 4 rfl (by decide) (by decide) (by
  have h0 := VDst.code_lt d; have h1 := SSrc.code_lt a; have h2 := i.isLt; show d.code * 131072 + a.code * 1024 + i.toNat < 4194304; omega)
theorem stv (v : VSrc) (a : SSrc) (i : BitVec 7) : Statement (.stv v a i) := fieldOf 3 5 rfl (by decide) (by decide) (by
  have h0 := VSrc.code_lt v; have h1 := SSrc.code_lt a; have h2 := i.isLt; show v.code * 16384 + a.code * 128 + i.toNat < 4194304; omega)
theorem ld (d : BitVec 6) (a : SSrc) (i : BitVec 7) (z : Size) : Statement (.ld d a i z) := fieldOf 3 6 rfl (by decide) (by decide) (by
  have h0 := d.isLt; have h1 := SSrc.code_lt a; have h2 := i.isLt; have h3 := Size.code_lt z; show d.toNat * 65536 + a.code * 512 + i.toNat * 4 + z.code < 4194304; omega)
theorem ldS (d : BitVec 6) (a : SSrc) (i : BitVec 7) (z : Size) : Statement (.ldS d a i z) := fieldOf 3 7 rfl (by decide) (by decide) (by
  have h0 := d.isLt; have h1 := SSrc.code_lt a; have h2 := i.isLt; have h3 := Size.code_lt z; show d.toNat * 65536 + a.code * 512 + i.toNat * 4 + z.code < 4194304; omega)
theorem lda (d : BitVec 6) (a : SSrc) (i : BitVec 7) (z : Size) : Statement (.lda d a i z) := fieldOf 3 8 rfl (by decide) (by decide) (by
  have h0 := d.isLt; have h1 := SSrc.code_lt a; have h2 := i.isLt; have h3 := Size.code_lt z; show d.toNat * 65536 + a.code * 512 + i.toNat * 4 + z.code < 4194304; omega)
theorem st (a : SSrc) (b : SSrc) (i : BitVec 6) (z : Size) : Statement (.st a b i z) := fieldOf 3 9 rfl (by decide) (by decide) (by
  have h0 := SSrc.code_lt a; have h1 := SSrc.code_lt b; have h2 := i.isLt; have h3 := Size.code_lt z; show a.code * 32768 + b.code * 256 + i.toNat * 4 + z.code < 4194304; omega)
theorem sta (a : SSrc) (b : SSrc) (i : BitVec 6) (z : Size) : Statement (.sta a b i z) := fieldOf 3 10 rfl (by decide) (by decide) (by
  have h0 := SSrc.code_lt a; have h1 := SSrc.code_lt b; have h2 := i.isLt; have h3 := Size.code_lt z; show a.code * 32768 + b.code * 256 + i.toNat * 4 + z.code < 4194304; omega)
theorem loadCompletion (core : Nat) (ctx : Nat) (k : Nat) : Statement (.loadCompletion core ctx k) := noField rfl
theorem tld (w : TldWhere) (a : SSrc) (b : SSrc) (d : BitVec 6) : Statement (.tld w a b d) := fieldOf 3 11 rfl (by decide) (by decide) (by
  have h0 := TldWhere.code_lt w; have h1 := SSrc.code_lt a; have h2 := SSrc.code_lt b; have h3 := d.isLt; show w.code * 1048576 + a.code * 8192 + b.code * 64 + d.toNat < 4194304; omega)
theorem tldRingClaim (core : Nat) (ctx : Nat) : Statement (.tldRingClaim core ctx) := noField rfl
theorem tileLoadCompletion (core : Nat) (ctx : Nat) (k : Nat) : Statement (.tileLoadCompletion core ctx k) := noField rfl
theorem tst (a : SSrc) (b : SSrc) (d : BitVec 6) : Statement (.tst a b d) := fieldOf 3 12 rfl (by decide) (by decide) (by
  have h0 := SSrc.code_lt a; have h1 := SSrc.code_lt b; have h2 := d.isLt; show 2097152 + a.code * 8192 + b.code * 64 + d.toNat < 4194304; omega)
theorem tileStoreCompletion (core : Nat) (ctx : Nat) (k : Nat) : Statement (.tileStoreCompletion core ctx k) := noField rfl
theorem ldsc (a : SSrc) (c : BitVec 8) : Statement (.ldsc a c) := fieldOf 3 13 rfl (by decide) (by decide) (by
  have h0 := SSrc.code_lt a; have h1 := c.isLt; show a.code * 32768 + c.toNat * 128 < 4194304; omega)
theorem amoAdd (c : Scope) (o : AmoOrder) (d : BitVec 6) (a : SSrc) (w : Bool) : Statement (.amoAdd c o d a w) := fieldOf 3 14 rfl (by decide) (by decide) (by
  have h0 := Scope.code_lt c; have h1 := AmoOrder.code_lt o; have h2 := d.isLt; have h3 := SSrc.code_lt a; have h4 := Bool.toNat_lt w; show c.code * 524288 + o.code * 131072 + d.toNat * 2048 + a.code * 16 + w.toNat * 8 < 4194304; omega)
theorem amoAnd (c : Scope) (o : AmoOrder) (d : BitVec 6) (a : SSrc) (w : Bool) : Statement (.amoAnd c o d a w) := fieldOf 3 15 rfl (by decide) (by decide) (by
  have h0 := Scope.code_lt c; have h1 := AmoOrder.code_lt o; have h2 := d.isLt; have h3 := SSrc.code_lt a; have h4 := Bool.toNat_lt w; show c.code * 524288 + o.code * 131072 + d.toNat * 2048 + a.code * 16 + w.toNat * 8 < 4194304; omega)
theorem amoOr (c : Scope) (o : AmoOrder) (d : BitVec 6) (a : SSrc) (w : Bool) : Statement (.amoOr c o d a w) := fieldOf 3 16 rfl (by decide) (by decide) (by
  have h0 := Scope.code_lt c; have h1 := AmoOrder.code_lt o; have h2 := d.isLt; have h3 := SSrc.code_lt a; have h4 := Bool.toNat_lt w; show c.code * 524288 + o.code * 131072 + d.toNat * 2048 + a.code * 16 + w.toNat * 8 < 4194304; omega)
theorem amoXor (c : Scope) (o : AmoOrder) (d : BitVec 6) (a : SSrc) (w : Bool) : Statement (.amoXor c o d a w) := fieldOf 3 17 rfl (by decide) (by decide) (by
  have h0 := Scope.code_lt c; have h1 := AmoOrder.code_lt o; have h2 := d.isLt; have h3 := SSrc.code_lt a; have h4 := Bool.toNat_lt w; show c.code * 524288 + o.code * 131072 + d.toNat * 2048 + a.code * 16 + w.toNat * 8 < 4194304; omega)
theorem amoMin (c : Scope) (o : AmoOrder) (d : BitVec 6) (a : SSrc) (w : Bool) : Statement (.amoMin c o d a w) := fieldOf 3 18 rfl (by decide) (by decide) (by
  have h0 := Scope.code_lt c; have h1 := AmoOrder.code_lt o; have h2 := d.isLt; have h3 := SSrc.code_lt a; have h4 := Bool.toNat_lt w; show c.code * 524288 + o.code * 131072 + d.toNat * 2048 + a.code * 16 + w.toNat * 8 < 4194304; omega)
theorem amoMax (c : Scope) (o : AmoOrder) (d : BitVec 6) (a : SSrc) (w : Bool) : Statement (.amoMax c o d a w) := fieldOf 3 19 rfl (by decide) (by decide) (by
  have h0 := Scope.code_lt c; have h1 := AmoOrder.code_lt o; have h2 := d.isLt; have h3 := SSrc.code_lt a; have h4 := Bool.toNat_lt w; show c.code * 524288 + o.code * 131072 + d.toNat * 2048 + a.code * 16 + w.toNat * 8 < 4194304; omega)
theorem amoXchg (c : Scope) (o : AmoOrder) (d : BitVec 6) (a : SSrc) (w : Bool) : Statement (.amoXchg c o d a w) := fieldOf 3 20 rfl (by decide) (by decide) (by
  have h0 := Scope.code_lt c; have h1 := AmoOrder.code_lt o; have h2 := d.isLt; have h3 := SSrc.code_lt a; have h4 := Bool.toNat_lt w; show c.code * 524288 + o.code * 131072 + d.toNat * 2048 + a.code * 16 + w.toNat * 8 < 4194304; omega)
theorem amoCas (c : Scope) (o : AmoOrder) (d : BitVec 6) (a : SSrc) (w : Bool) : Statement (.amoCas c o d a w) := fieldOf 3 21 rfl (by decide) (by decide) (by
  have h0 := Scope.code_lt c; have h1 := AmoOrder.code_lt o; have h2 := d.isLt; have h3 := SSrc.code_lt a; have h4 := Bool.toNat_lt w; show c.code * 524288 + o.code * 131072 + d.toNat * 2048 + a.code * 16 + w.toNat * 8 < 4194304; omega)
theorem amoReply (core : Nat) (ctx : Nat) (k : Nat) : Statement (.amoReply core ctx k) := noField rfl
theorem phase (a : SSrc) (c : Scope) (k : PhaseKind) : Statement (.phase a c k) := fieldOf 3 22 rfl (by decide) (by decide) (by
  have h0 := SSrc.code_lt a; have h1 := Scope.code_lt c; have h2 := PhaseKind.code_lt k; show a.code * 32768 + c.code * 4096 + k.code * 1024 < 4194304; omega)
theorem phaseAcquireAtHome (core : Nat) (ctx : Nat) : Statement (.phaseAcquireAtHome core ctx) := noField rfl
theorem phaseReleaseRegistration (core : Nat) (ctx : Nat) : Statement (.phaseReleaseRegistration core ctx) := noField rfl
theorem acq (c : Scope) : Statement (.acq c) := fieldOf 3 23 rfl (by decide) (by decide) (by
  have h0 := Scope.code_lt c; show c.code * 524288 < 4194304; omega)
theorem rel (c : Scope) : Statement (.rel c) := fieldOf 3 24 rfl (by decide) (by decide) (by
  have h0 := Scope.code_lt c; show c.code * 524288 < 4194304; omega)
theorem fence (c : Scope) : Statement (.fence c) := fieldOf 3 25 rfl (by decide) (by decide) (by
  have h0 := Scope.code_lt c; show c.code * 524288 < 4194304; omega)
theorem nopC : Statement (.nopC) := fieldOf 4 0 rfl (by decide) (by decide) (by
   show 0 < 4194304; omega)
theorem cpost (a : SSrc) (b : SSrc) (d : BitVec 6) : Statement (.cpost a b d) := fieldOf 4 1 rfl (by decide) (by decide) (by
  have h0 := SSrc.code_lt a; have h1 := SSrc.code_lt b; have h2 := d.isLt; show a.code * 32768 + b.code * 256 + d.toNat * 4 < 4194304; omega)
theorem cpostCompletion (core : Nat) (ctx : Nat) (k : Nat) : Statement (.cpostCompletion core ctx k) := noField rfl
theorem gather (v : VSrc) (a : SSrc) (b : SSrc) : Statement (.gather v a b) := fieldOf 4 2 rfl (by decide) (by decide) (by
  have h0 := VSrc.code_lt v; have h1 := SSrc.code_lt a; have h2 := SSrc.code_lt b; show v.code * 16384 + a.code * 128 + b.code < 4194304; omega)
theorem scatter (v : VSrc) (a : SSrc) (b : SSrc) : Statement (.scatter v a b) := fieldOf 4 3 rfl (by decide) (by decide) (by
  have h0 := VSrc.code_lt v; have h1 := SSrc.code_lt a; have h2 := SSrc.code_lt b; show v.code * 16384 + a.code * 128 + b.code < 4194304; omega)
theorem coll (a : SSrc) (b : SSrc) (d : BitVec 6) : Statement (.coll a b d) := fieldOf 4 4 rfl (by decide) (by decide) (by
  have h0 := SSrc.code_lt a; have h1 := SSrc.code_lt b; have h2 := d.isLt; show a.code * 32768 + b.code * 256 + d.toNat * 4 < 4194304; omega)
theorem tbinit (a : SSrc) (b : SSrc) : Statement (.tbinit a b) := fieldOf 4 5 rfl (by decide) (by decide) (by
  have h0 := SSrc.code_lt a; have h1 := SSrc.code_lt b; show a.code * 32768 + b.code * 256 < 4194304; omega)
theorem tbarr (a : SSrc) : Statement (.tbarr a) := fieldOf 4 6 rfl (by decide) (by decide) (by
  have h0 := SSrc.code_lt a; show a.code * 32768 < 4194304; omega)
theorem tbexp (a : SSrc) (b : SSrc) : Statement (.tbexp a b) := fieldOf 4 7 rfl (by decide) (by decide) (by
  have h0 := SSrc.code_lt a; have h1 := SSrc.code_lt b; show a.code * 32768 + b.code * 256 < 4194304; omega)
theorem tbwait (a : SSrc) (b : SSrc) (d : BitVec 6) : Statement (.tbwait a b d) := fieldOf 4 8 rfl (by decide) (by decide) (by
  have h0 := SSrc.code_lt a; have h1 := SSrc.code_lt b; have h2 := d.isLt; show a.code * 32768 + b.code * 256 + d.toNat * 4 < 4194304; omega)
theorem parkApply (cluster : Nat) : Statement (.parkApply cluster) := noField rfl
theorem barrierUpdateArrival (k : Nat) : Statement (.barrierUpdateArrival k) := noField rfl
theorem plwait (a : SSrc) (p : BitVec 4) (d : BitVec 6) : Statement (.plwait a p d) := fieldOf 4 9 rfl (by decide) (by decide) (by
  have h0 := SSrc.code_lt a; have h1 := p.isLt; have h2 := d.isLt; show a.code * 32768 + p.toNat * 2048 + d.toNat * 32 < 4194304; omega)
theorem plread (a : SSrc) (d : BitVec 6) : Statement (.plread a d) := fieldOf 4 10 rfl (by decide) (by decide) (by
  have h0 := SSrc.code_lt a; have h1 := d.isLt; show a.code * 32768 + d.toNat * 512 < 4194304; omega)
theorem plcancel (a : SSrc) : Statement (.plcancel a) := fieldOf 4 11 rfl (by decide) (by decide) (by
  have h0 := SSrc.code_lt a; show a.code * 32768 < 4194304; omega)
theorem nxt (a : SSrc) : Statement (.nxt a) := fieldOf 4 12 rfl (by decide) (by decide) (by
  have h0 := SSrc.code_lt a; show a.code * 32768 < 4194304; omega)
theorem pmovS (o : BitVec 8) (a : SSrc) : Statement (.pmovS o a) := fieldOf 4 13 rfl (by decide) (by decide) (by
  have h0 := o.isLt; have h1 := SSrc.code_lt a; show o.toNat * 16384 + a.code * 128 < 4194304; omega)
theorem pmovV (o : BitVec 8) (v : VSrc) : Statement (.pmovV o v) := fieldOf 4 14 rfl (by decide) (by decide) (by
  have h0 := o.isLt; have h1 := VSrc.code_lt v; show o.toNat * 16384 + v.code * 64 < 4194304; omega)
theorem pget (d : BitVec 6) (o : BitVec 8) : Statement (.pget d o) := fieldOf 4 15 rfl (by decide) (by decide) (by
  have h0 := d.isLt; have h1 := o.isLt; show d.toNat * 65536 + o.toNat * 256 < 4194304; omega)
theorem lddt (n : BitVec 3) (a : SSrc) (d : BitVec 6) : Statement (.lddt n a d) := fieldOf 4 16 rfl (by decide) (by decide) (by
  have h0 := n.isLt; have h1 := SSrc.code_lt a; have h2 := d.isLt; show n.toNat * 524288 + a.code * 4096 + d.toNat * 64 < 4194304; omega)
theorem lddtCompletion (core : Nat) (ctx : Nat) (dt : Nat) : Statement (.lddtCompletion core ctx dt) := noField rfl
theorem cbld (c : BitVec 4) (a : SSrc) : Statement (.cbld c a) := fieldOf 4 17 rfl (by decide) (by decide) (by
  have h0 := c.isLt; have h1 := SSrc.code_lt a; show c.toNat * 262144 + a.code * 2048 < 4194304; omega)
theorem cbst (c : BitVec 4) (a : SSrc) : Statement (.cbst c a) := fieldOf 4 18 rfl (by decide) (by decide) (by
  have h0 := c.isLt; have h1 := SSrc.code_lt a; show c.toNat * 262144 + a.code * 2048 < 4194304; omega)
theorem cbget (d : BitVec 4) (c : BitVec 4) : Statement (.cbget d c) := fieldOf 4 19 rfl (by decide) (by decide) (by
  have h0 := d.isLt; have h1 := c.isLt; show d.toNat * 131072 + c.toNat * 8192 < 4194304; omega)
theorem cbput (c : BitVec 4) (v : VSrc) : Statement (.cbput c v) := fieldOf 4 20 rfl (by decide) (by decide) (by
  have h0 := c.isLt; have h1 := VSrc.code_lt v; show c.toNat * 262144 + v.code * 1024 < 4194304; omega)
theorem vpld (e : BitVec 6) (a : SSrc) : Statement (.vpld e a) := fieldOf 4 21 rfl (by decide) (by decide) (by
  have h0 := e.isLt; have h1 := SSrc.code_lt a; show e.toNat * 65536 + a.code * 512 < 4194304; omega)
theorem mbld (s : BitVec 8) (a : SSrc) (n : BitVec 7) : Statement (.mbld s a n) := fieldOf 4 22 rfl (by decide) (by decide) (by
  have h0 := s.isLt; have h1 := SSrc.code_lt a; have h2 := n.isLt; show s.toNat * 16384 + a.code * 128 + n.toNat < 4194304; omega)
theorem cbuDedup (core : Nat) (ctx : Nat) : Statement (.cbuDedup core ctx) := noField rfl
theorem cbuRemap (core : Nat) (ctx : Nat) : Statement (.cbuRemap core ctx) := noField rfl
theorem cbuPair (core : Nat) (ctx : Nat) : Statement (.cbuPair core ctx) := noField rfl
theorem cbuExpand (core : Nat) (ctx : Nat) : Statement (.cbuExpand core ctx) := noField rfl
theorem rcuRun (core : Nat) (ctx : Nat) : Statement (.rcuRun core ctx) := noField rfl
theorem htbBuild (core : Nat) (ctx : Nat) : Statement (.htbBuild core ctx) := noField rfl
theorem nopB : Statement (.nopB) := fieldOf 5 0 rfl (by decide) (by decide) (by
   show 0 < 4194304; omega)
theorem pbr (n : BitVec 3) (a : SSrc) : Statement (.pbr n a) := fieldOf 5 1 rfl (by decide) (by decide) (by
  have h0 := n.isLt; have h1 := SSrc.code_lt a; show n.toNat * 524288 + a.code * 4096 < 4194304; omega)
theorem pbri (n : BitVec 3) (i : BitVec 19) : Statement (.pbri n i) := fieldOf 5 2 rfl (by decide) (by decide) (by
  have h0 := n.isLt; have h1 := i.isLt; show n.toNat * 524288 + i.toNat < 4194304; omega)
theorem br (n : BitVec 3) (q : BitVec 3) (g : Bool) : Statement (.br n q g) := fieldOf 5 3 rfl (by decide) (by decide) (by
  have h0 := n.isLt; have h1 := q.isLt; have h2 := Bool.toNat_lt g; show n.toNat * 524288 + q.toNat * 65536 + g.toNat * 32768 < 4194304; omega)
theorem call (n : BitVec 3) (q : BitVec 3) (g : Bool) : Statement (.call n q g) := fieldOf 5 4 rfl (by decide) (by decide) (by
  have h0 := n.isLt; have h1 := q.isLt; have h2 := Bool.toNat_lt g; show n.toNat * 524288 + q.toNat * 65536 + g.toNat * 32768 < 4194304; omega)
theorem ret (q : BitVec 3) (g : Bool) : Statement (.ret q g) := fieldOf 5 5 rfl (by decide) (by decide) (by
  have h0 := q.isLt; have h1 := Bool.toNat_lt g; show q.toNat * 65536 + g.toNat * 32768 < 4194304; omega)
theorem pmark : Statement (.pmark) := fieldOf 5 6 rfl (by decide) (by decide) (by
   show 0 < 4194304; omega)
theorem suspend : Statement (.suspend) := fieldOf 5 7 rfl (by decide) (by decide) (by
   show 0 < 4194304; omega)
theorem endB : Statement (.endB) := fieldOf 5 8 rfl (by decide) (by decide) (by
   show 0 < 4194304; omega)
theorem nopX : Statement (.nopX) := fieldOf 6 0 rfl (by decide) (by decide) (by
   show 0 < 4194304; omega)
theorem trap (i : BitVec 16) : Statement (.trap i) := fieldOf 6 1 rfl (by decide) (by decide) (by
  have h0 := i.isLt; show i.toNat < 4194304; omega)
theorem reti : Statement (.reti) := fieldOf 6 2 rfl (by decide) (by decide) (by
   show 0 < 4194304; omega)
theorem uret : Statement (.uret) := fieldOf 6 3 rfl (by decide) (by decide) (by
   show 0 < 4194304; omega)
theorem crd (d : BitVec 6) (n : BitVec 12) : Statement (.crd d n) := fieldOf 6 4 rfl (by decide) (by decide) (by
  have h0 := d.isLt; have h1 := n.isLt; show d.toNat * 65536 + n.toNat * 16 < 4194304; omega)
theorem cwr (a : SSrc) (n : BitVec 12) : Statement (.cwr a n) := fieldOf 6 5 rfl (by decide) (by decide) (by
  have h0 := SSrc.code_lt a; have h1 := n.isLt; show a.code * 32768 + n.toNat * 8 < 4194304; omega)
theorem arrsave : Statement (.arrsave) := fieldOf 6 6 rfl (by decide) (by decide) (by
   show 0 < 4194304; omega)
theorem arrrest : Statement (.arrrest) := fieldOf 6 7 rfl (by decide) (by decide) (by
   show 0 < 4194304; omega)
theorem setpool (a : SSrc) (d : BitVec 6) : Statement (.setpool a d) := fieldOf 6 8 rfl (by decide) (by decide) (by
  have h0 := SSrc.code_lt a; have h1 := d.isLt; show a.code * 32768 + d.toNat * 512 < 4194304; omega)
theorem setpoolConversion (core : Nat) : Statement (.setpoolConversion core) := noField rfl
theorem tlbinv (a : SSrc) (k : TlbKind) : Statement (.tlbinv a k) := fieldOf 6 9 rfl (by decide) (by decide) (by
  have h0 := SSrc.code_lt a; have h1 := TlbKind.code_lt k; show a.code * 32768 + k.code * 4096 < 4194304; omega)
theorem cwb (a : SSrc) (k : CacheKind) : Statement (.cwb a k) := fieldOf 6 10 rfl (by decide) (by decide) (by
  have h0 := SSrc.code_lt a; have h1 := CacheKind.code_lt k; show a.code * 32768 + k.code * 4096 < 4194304; omega)
theorem cinv (a : SSrc) (k : CacheKind) : Statement (.cinv a k) := fieldOf 6 11 rfl (by decide) (by decide) (by
  have h0 := SSrc.code_lt a; have h1 := CacheKind.code_lt k; show a.code * 32768 + k.code * 4096 < 4194304; omega)
theorem wfe : Statement (.wfe) := fieldOf 6 12 rfl (by decide) (by decide) (by
   show 0 < 4194304; omega)
theorem supervisorTrapEntry (core : Nat) (ctx : Nat) : Statement (.supervisorTrapEntry core ctx) := noField rfl
theorem userInterruptEntry (core : Nat) (ctx : Nat) : Statement (.userInterruptEntry core ctx) := noField rfl
theorem switchOnStall (core : Nat) : Statement (.switchOnStall core) := noField rfl
theorem switchQuantumExpiry (core : Nat) : Statement (.switchQuantumExpiry core) := noField rfl
theorem preemptionRequest (cluster : Nat) : Statement (.preemptionRequest cluster) := noField rfl
theorem heavyPreemption (core : Nat) (ctx : Nat) : Statement (.heavyPreemption core ctx) := noField rfl
theorem itemKill (core : Nat) (ctx : Nat) : Statement (.itemKill core ctx) := noField rfl
theorem timerExpiry (cluster : Nat) (n : Nat) : Statement (.timerExpiry cluster n) := noField rfl
theorem noticeWrite (cluster : Nat) (w : Nat) : Statement (.noticeWrite cluster w) := noField rfl
theorem cpreqWrite (cluster : Nat) (w : Nat) : Statement (.cpreqWrite cluster w) := noField rfl
theorem launchTake (vdev : Nat) (q : Nat) : Statement (.launchTake vdev q) := noField rfl
theorem recordCreate (launch : Nat) : Statement (.recordCreate launch) := noField rfl
theorem recordPickup (cluster : Nat) : Statement (.recordPickup cluster) := noField rfl
theorem recordAging (cluster : Nat) : Statement (.recordAging cluster) := noField rfl
theorem recordSteal (cluster : Nat) : Statement (.recordSteal cluster) := noField rfl
theorem dispenserBatchRequest (cluster : Nat) (launch : Nat) (d : Nat) : Statement (.dispenserBatchRequest cluster launch d) := noField rfl
theorem dispenserBatchReturn (cluster : Nat) (launch : Nat) : Statement (.dispenserBatchReturn cluster launch) := noField rfl
theorem dispenserExhaustion (launch : Nat) (d : Nat) : Statement (.dispenserExhaustion launch d) := noField rfl
theorem packetTake (vdev : Nat) (q : Nat) : Statement (.packetTake vdev q) := noField rfl
theorem packetCompletion (k : Nat) : Statement (.packetCompletion k) := noField rfl
theorem transformCompletion (k : Nat) : Statement (.transformCompletion k) := noField rfl
theorem gatherRow (k : Nat) (lane : Nat) : Statement (.gatherRow k lane) := noField rfl
theorem scatterRow (k : Nat) (lane : Nat) : Statement (.scatterRow k lane) := noField rfl
theorem collectiveAnnounce (k : Nat) : Statement (.collectiveAnnounce k) := noField rfl
theorem planeLanding (k : Nat) : Statement (.planeLanding k) := noField rfl
theorem relayForward (k : Nat) : Statement (.relayForward k) := noField rfl
theorem cancelUpstream (k : Nat) : Statement (.cancelUpstream k) := noField rfl
theorem truncation (k : Nat) : Statement (.truncation k) := noField rfl
theorem errorNotice (k : Nat) : Statement (.errorNotice k) := noField rfl
theorem decoderSegmentDecode (core : Nat) : Statement (.decoderSegmentDecode core) := noField rfl
theorem pageWalk (core : Nat) (va : Nat) : Statement (.pageWalk core va) := noField rfl
theorem pagePromotion (pier : Nat) : Statement (.pagePromotion pier) := noField rfl
theorem pageDemotion (pier : Nat) : Statement (.pageDemotion pier) := noField rfl
theorem migrationCopy (k : Nat) : Statement (.migrationCopy k) := noField rfl
theorem epochHalving (pier : Nat) : Statement (.epochHalving pier) := noField rfl
theorem allocatingWriteResume (pier : Nat) : Statement (.allocatingWriteResume pier) := noField rfl
theorem extentReleaseRequest (base : Nat) (len : Nat) : Statement (.extentReleaseRequest base len) := noField rfl
theorem forcedExtentRemoval (base : Nat) (len : Nat) : Statement (.forcedExtentRemoval base len) := noField rfl
theorem prefetchRequestServe (pier : Nat) : Statement (.prefetchRequestServe pier) := noField rfl
theorem chunkAddWrite (pier : Nat) (w : Nat) : Statement (.chunkAddWrite pier w) := noField rfl
theorem chunkRsvWrite (pier : Nat) (w : Nat) : Statement (.chunkRsvWrite pier w) := noField rfl
theorem frameAddWrite (pier : Nat) (w : Nat) : Statement (.frameAddWrite pier w) := noField rfl
theorem hwbaseWrite (vdev : Nat) (w : Nat) : Statement (.hwbaseWrite vdev w) := noField rfl
theorem configRegisterWrite (block : CfgBlock) (unit : Nat) (reg : Nat) (w : Nat) : Statement (.configRegisterWrite block unit reg w) := noField rfl
theorem hostMemoryWrite (vdev : Nat) (off : Nat) (bytes : List (BitVec 8)) : Statement (.hostMemoryWrite vdev off bytes) := noField rfl
theorem hostMemoryRead (vdev : Nat) (off : Nat) (len : Nat) : Statement (.hostMemoryRead vdev off len) := noField rfl
theorem hostAtomicopFetchadd (vdev : Nat) (off : Nat) (w : Nat) : Statement (.hostAtomicopFetchadd vdev off w) := noField rfl
theorem hostAtomicopSwap (vdev : Nat) (off : Nat) (w : Nat) : Statement (.hostAtomicopSwap vdev off w) := noField rfl
theorem hostAtomicopCas (vdev : Nat) (off : Nat) (cmp : Nat) (w : Nat) : Statement (.hostAtomicopCas vdev off cmp w) := noField rfl
theorem causewayAccess (port : Nat) (vdev : Nat) (op : Nat) (va : Nat) (bytes : List (BitVec 8)) : Statement (.causewayAccess port vdev op va bytes) := noField rfl
theorem packageReset : Statement (.packageReset) := noField rfl
theorem virtualDeviceReset (vdev : Nat) : Statement (.virtualDeviceReset vdev) := noField rfl
theorem clusterReassignment (cluster : Nat) (vdev : Nat) : Statement (.clusterReassignment cluster vdev) := noField rfl
theorem attestationRequest (vdev : Nat) (nonce : List (BitVec 8)) : Statement (.attestationRequest vdev nonce) := noField rfl
theorem readTelemetry : Statement (.readTelemetry) := noField rfl
theorem polrumAttest (nonce : List (BitVec 8)) : Statement (.polrumAttest nonce) := noField rfl
theorem writeImageSlot (slot : Nat) (bytes : List (BitVec 8)) : Statement (.writeImageSlot slot bytes) := noField rfl
theorem raiseFloor (bytes : List (BitVec 8)) : Statement (.raiseFloor bytes) := noField rfl
theorem polrumPackageReset : Statement (.polrumPackageReset) := noField rfl
theorem readErrorLog (pier : Nat) : Statement (.readErrorLog pier) := noField rfl
theorem thermalStep (sensor : Nat) (temp : Nat) : Statement (.thermalStep sensor temp) := noField rfl
theorem thermalTrip (temp : Heat) (power : Draw) : Statement (.thermalTrip temp power) := noField rfl
theorem scaleQueueFill (core : Nat) : Statement (.scaleQueueFill core) := noField rfl
theorem writeBackArrival (core : Nat) (pa : Nat) : Statement (.writeBackArrival core pa) := noField rfl
theorem systemCoreStore (pa : Nat) (bytes : List (BitVec 8)) : Statement (.systemCoreStore pa bytes) := noField rfl
theorem extentGrant (base : Nat) (len : Nat) : Statement (.extentGrant base len) := noField rfl

end Laws.Field

end Sys2Proof
end

