-- ==== Sys2Proof/Laws/Slot.lean ====
section
/-! SUPPORT. Laws/Slot.lean: the outcome of a slot, sources, landings and variable producers. -/

namespace Sys2Proof.Machine

open Sys2Proof

/-! ## The form of a slot -/

@[simp] theorem slot_ok (s t : State) : slot s (.ok t) = .next t := rfl
@[simp] theorem slot_error (s : State) (v : Void) : slot s (.error v) = .next (s.void v) := rfl

/-- A slot always answers: its effect, or the void bundle. -/
theorem slot_cases (s : State) (r : Except Void State) :
    (∃ t, r = .ok t ∧ slot s r = .next t) ∨ ∃ v, r = .error v ∧ slot s r = .next (s.void v) := by
  cases r with
  | ok t => exact .inl ⟨t, rfl, rfl⟩
  | error v => exact .inr ⟨v, rfl, rfl⟩

@[simp] theorem need_true (v : Void) : need true v = .ok () := rfl
@[simp] theorem need_false (v : Void) : need false v = .error v := rfl

theorem need_ok (b : Bool) (v : Void) (h : b = true) : need b v = .ok () := by subst h; rfl
theorem need_error (b : Bool) (v : Void) (h : b = false) : need b v = .error v := by subst h; rfl

@[simp] theorem bind_ok {α β : Type} (a : α) (f : α → Except Void β) : (Except.ok a >>= f) = f a := rfl
@[simp] theorem bind_error {α β : Type} (v : Void) (f : α → Except Void β) :
    ((Except.error v : Except Void α) >>= f) = .error v := rfl
@[simp] theorem pure_ok {α : Type} (a : α) : (pure a : Except Void α) = .ok a := rfl

@[simp] theorem void_void (s : State) (v : Void) : (s.void v).issue.void = some (s.delayed v) := rfl

/-- The bundle's trap does not wait where no unit operation of the context runs (R143). -/
theorem delayed_eq (s : State) (v : Void) (h : (s.issue.before.getD s.mycore).unitBusy s.j = false) :
    s.delayed v = v := by
  cases v <;> simp [State.delayed, h]

/-! ## Sources (R35, R44) -/

theorem readSrc_tap (x : Ctx) (b : Bool) (d : BitVec 2) : readSrc x (.tap b d) = .ok (x.tapS b d.toNat) := rfl

theorem readSrc_full (x : Ctx) (r : BitVec 6) (t : Bool) (h : x.feS r.toNat = .full) :
    readSrc x (.reg r t) = .ok (x.regS r.toNat) := by simp [readSrc, h]

theorem readSrc_empty (x : Ctx) (r : BitVec 6) (t : Bool) (h : x.feS r.toNat = .empty) :
    readSrc x (.reg r t) = .error (if t then fault 0x12 r.toNat else .stall .fe) := by simp [readSrc, h]

theorem readSrc_faulted (x : Ctx) (r : BitVec 6) (t : Bool) (h : x.feS r.toNat = .faulted) :
    readSrc x (.reg r t) = .error (x.deferred r.toNat) := by simp [readSrc, h]

@[simp] theorem regS_zero (x : Ctx) : x.regS 0 = 0 := rfl
@[simp] theorem feS_zero (x : Ctx) : x.feS 0 = .full := rfl

@[simp] theorem putS_zero (x : Ctx) (b : Bool) (w : Word) (f : FE) : x.putS b 0 w f = x := rfl

theorem regS_putS (x : Ctx) (c k : Nat) (w : Word) (f : FE) (h : c ≠ 0) :
    (x.putS (x.shadowed c) c w f).regS k = if k = c then w else x.regS k := by
  have h0 : (c == 0) = false := by simpa using h
  rcases eq_or_ne k 0 with rfl | hk
  · simp [Ne.symm h]
  · have hk0 : (k == 0) = false := by simpa using hk
    simp only [Ctx.putS, h0, Ctx.regS, hk0, Bool.false_eq_true, if_false]
    rcases hs : x.shadowed c <;> rcases hs' : x.shadowed k <;>
      simp only [Ctx.shadowed, Bool.and_eq_true, Bool.and_eq_false_iff, decide_eq_true_eq, decide_eq_false_iff_not] at hs hs' <;>
      simp [Ctx.shadowed, Tbl.get_set] <;> grind

theorem feS_putS (x : Ctx) (c k : Nat) (w : Word) (f : FE) (h : c ≠ 0) :
    (x.putS (x.shadowed c) c w f).feS k = if k = c then f else x.feS k := by
  have h0 : (c == 0) = false := by simpa using h
  rcases eq_or_ne k 0 with rfl | hk
  · simp [Ne.symm h]
  · have hk0 : (k == 0) = false := by simpa using hk
    simp only [Ctx.putS, h0, Ctx.feS, hk0, Bool.false_eq_true, if_false]
    rcases hs : x.shadowed c <;> rcases hs' : x.shadowed k <;>
      simp only [Ctx.shadowed, Bool.and_eq_true, Bool.and_eq_false_iff, decide_eq_true_eq, decide_eq_false_iff_not] at hs hs' <;>
      simp [Ctx.shadowed, Tbl.get_set] <;> grind

/-! ## Landings (R35, R53) -/

/-- The landing a slot puts in flight. -/
def State.flightX (s : State) (d : Dest) (v : Word) (n : Nat) (fl : FlagSet) : Flight :=
  ⟨s.xUnit, d, v, [], n, fl, false, s.issue.pos, s.me.depth, s.me.toShadow d, .none⟩

theorem landX_eq (s : State) (d : Dest) (v : Word) (n : Nat) (fl : FlagSet) :
    s.landX d v n fl = s.updMe fun x => { x with
      flights := x.flights ++ [⟨s.xUnit, d, v, [], n, fl, false, s.issue.pos, x.depth, x.toShadow d, .none⟩] } := rfl

theorem landY_eq (s : State) (d : Dest) (w : Lanes) (n : Nat) (fl : FlagSet) :
    s.landY d w n fl = s.updMe fun x => { x with
      flights := x.flights ++ [⟨s.yUnit, d, 0, w, n, fl, false, s.issue.pos, x.depth, x.toShadow d, .none⟩] } := rfl

@[simp] theorem me_landX (s : State) (d : Dest) (v : Word) (n : Nat) (fl : FlagSet) :
    (s.landX d v n fl).me = { s.me with flights := s.me.flights ++ [s.flightX d v n fl] } := by
  rw [landX_eq, me_updMe]
  rfl

/-- Every landing form leaves the machine but for the flights of the context that issues. -/
theorem updMe_onlyLands (s : State) (fs : List Flight) :
    OnlyLands s (s.updMe fun x => { x with flights := x.flights ++ fs }) := by
  refine ⟨⟨fs, by simp⟩, by simp [Core.setCtx], rfl, fun j hj => ctx_updMe_ne _ _ _ _ (.inr hj),
    fun n hn => core_updMe_ne _ _ _ hn, fun a => by simp, fun a => rfl⟩

theorem landX_onlyLands (s : State) (d : Dest) (v : Word) (n : Nat) (fl : FlagSet) : OnlyLands s (s.landX d v n fl) :=
  ⟨⟨[s.flightX d v n fl], me_landX s d v n fl⟩, by simp [landX_eq, Core.setCtx], rfl,
    fun j hj => ctx_updMe_ne _ _ _ _ (.inr hj), fun n hn => core_updMe_ne _ _ _ hn, fun a => by simp [landX_eq], fun a => rfl⟩

theorem landY_onlyLands (s : State) (d : Dest) (w : Lanes) (n : Nat) (fl : FlagSet) : OnlyLands s (s.landY d w n fl) :=
  ⟨⟨[⟨s.yUnit, d, 0, w, n, fl, false, s.issue.pos, s.me.depth, s.me.toShadow d, .none⟩], by
      rw [landY_eq, me_updMe]⟩, by simp [landY_eq, Core.setCtx], rfl,
    fun j hj => ctx_updMe_ne _ _ _ _ (.inr hj), fun n hn => core_updMe_ne _ _ _ hn, fun a => by simp [landY_eq], fun a => rfl⟩

/-! ## Variable producers (R54) -/

theorem emptyS_fe (x : Ctx) (c : Nat) (h : c ≠ 0) : (x.emptyS c).feS c = .empty := by
  have h0 : (c == 0) = false := by simpa using h
  simp only [Ctx.emptyS, h0, Ctx.feS, Bool.false_eq_true, if_false]
  rcases hs : x.shadowed c with _ | _
  · simp only [Ctx.shadowed] at hs
    simp [Ctx.shadowed, hs]
  · have : x.uih = true ∧ 60 ≤ c := by simpa [Ctx.shadowed] using hs
    simp [Ctx.shadowed, this]

@[simp] theorem emptyS_prods (x : Ctx) (c : Nat) : (x.emptyS c).prods = x.prods := by
  simp only [Ctx.emptyS]
  split
  · rfl
  · split <;> rfl

theorem addProd_prods (x : Ctx) (dst : Nat) (w : Work) (d : Option Done) :
    (x.addProd dst w d).prods = x.prods ++ [⟨dst, 0, x.shadowed dst, x.depth, w, d⟩] := by simp [Ctx.addProd]

theorem produce_me (s : State) (dst : Nat) (w : Work) (d : Option Done) :
    (s.produce dst w d).me = s.me.addProd dst w d := by simp [State.produce]

theorem produce_mem (s : State) (dst : Nat) (w : Work) (d : Option Done) : (s.produce dst w d).mem = s.mem := rfl

end Sys2Proof.Machine
end

