-- ==== Sys2Proof/Laws/Traps.lean ====
section
/-! SUPPORT. Laws/Traps.lean: what taking a supervisor trap and a user-level interrupt does to the context (R383, R394),
and what a return does (R89, R90). -/

namespace Sys2Proof.Machine

open Sys2Proof

/-! ## Small updates -/

/-- All that a raise changes: DFAULT, a held store fault and the fault maps. -/
theorem raise_eq (x : Ctx) (r : Raise) : ∃ d f m n, x.raise r = { x with dfault := d, storeFault := f, maps := m, shmaps := n } := by
  simp only [Ctx.raise]
  split <;> split <;> split <;> (try split) <;> exact ⟨_, _, _, _, rfl⟩

@[simp] theorem raise_depth (x : Ctx) (r : Raise) : (x.raise r).depth = x.depth := by
  obtain ⟨_, _, _, _, h⟩ := raise_eq x r; rw [h]

@[simp] theorem raise_s (x : Ctx) (r : Raise) : (x.raise r).s = x.s := by
  obtain ⟨_, _, _, _, h⟩ := raise_eq x r; rw [h]

@[simp] theorem dropFifo_pool (c : Core) (j : Nat) : (c.dropFifo j).pool = c.pool := by
  simp only [Core.dropFifo]; split <;> rfl

@[simp] theorem dropFifo_tvec (c : Core) (j : Nat) : (c.dropFifo j).tvec = c.tvec := by
  simp only [Core.dropFifo]; split <;> rfl

@[simp] theorem dropFifo_ctx (c : Core) (j k : Nat) : (c.dropFifo j).ctx k = c.ctx k := by
  simp only [Core.dropFifo]; split <;> rfl

theorem beatWrite_tvec (c : Core) (b : BeatWrite) : (c.beatWrite b).1.tvec = c.tvec := by
  cases b with
  | acc t r l => cases t <;> rfl
  | zero t a n => cases t <;> rfl
  | none => rfl
  | push r a b => rfl
  | swap => rfl

theorem landOne_tvec (j : Nat) (c : Core) (f : Flight) : (Core.landOne j c f).tvec = c.tvec := beatWrite_tvec c f.beat

theorem landAll_tvec (j : Nat) (c : Core) (l : List Flight) : (l.foldl (Core.landOne j) c).tvec = c.tvec := by
  induction l generalizing c with
  | nil => rfl
  | cons f t ih => rw [List.foldl_cons, ih, landOne_tvec]

@[simp] theorem landIf_tvec (c : Core) (j : Nat) (p : Flight → Bool) : (c.landIf j p).tvec = c.tvec :=
  landAll_tvec j _ _

@[simp] theorem capture_tvec (c : Core) (j : Nat) : (c.capture j).1.tvec = c.tvec := by
  simp only [Core.capture]
  split
  · rfl
  · rw [landIf_tvec, tvec_cSetCtx]

/-! ## A supervisor trap (R383) -/

/-- The context of a trap that has a handler and room for its frame: supervisor level, at TVEC, with the cause, the
return address and the frame's address, and no prepared fetch. -/
theorem takeTrap_ctx (s : State) (n j : Nat) (r : Raise) (ret : Nat)
    (room : frameAt j (s.ctx n j).depth + 0x800 ≤ (s.core n).b0 * Config.unitBytes)
    (play : r.play = false) (handler : (s.core n).tvec.toNat / 256 ≠ 0) :
    let y := (s.takeTrap n j r ret).ctx n j
    y.level = 1 ∧ y.pc = (s.core n).tvec.toNat / 256 * 256 ∧ y.depth = (s.ctx n j).depth + 1 ∧ y.prep = [] ∧
      y.trappc = BitVec.ofNat 64 (ret / 4 * 4) ∧ y.stall = none ∧ y.waiting = false ∧ y.pend = .none ∧
      (s.takeTrap n j r ret).mem = s.mem := by
  have hr : ¬ (s.core n).b0 * Config.unitBytes < frameAt j (s.ctx n j).depth + frameBytes := by
    simp only [frameBytes]; omega
  simp only [State.ctx] at hr
  have hh : ((s.core n).tvec.toNat / 256 == 0) = false := by simpa using handler
  simp only [State.takeTrap, play, Bool.false_eq_true, if_false, raise_depth, core_updCtx, b0_cSetCtx, hr,
    dropFifo_tvec, capture_tvec, tvec_cSetCtx, hh, State.ctx, core_setCore, cctx_setCtx]
  exact ⟨trivial, trivial, trivial, trivial, trivial, trivial, trivial, trivial, rfl⟩

/-! ## A user-level interrupt (R394) -/

/-- The context of a user-level interrupt: at UIVEC, in a handler, one pending interrupt fewer. -/
theorem takeUser_ctx (s : State) (n j ret : Nat) :
    let y := (s.takeUser n j ret).ctx n j
    y.uih = true ∧ y.depth = 1 ∧ y.uipc = BitVec.ofNat 64 (ret / 4 * 4) ∧ y.stall = none ∧ y.waiting = false ∧
      (s.takeUser n j ret).mem = s.mem := by
  simp only [State.takeUser, State.ctx, core_setCore, cctx_setCtx]
  exact ⟨trivial, trivial, trivial, trivial, trivial, rfl⟩

/-! ## Returns (R89, R90) -/

@[simp] theorem unwind_depth (x : Ctx) (k : Nat) : (x.unwind k).depth = k := rfl
@[simp] theorem unwind_flights (x : Ctx) (k : Nat) :
    (x.unwind k).flights = x.flights.filter fun f => f.home != x.depth := rfl
@[simp] theorem restore_depth (x : Ctx) (k : Nat) (f : List Byte) : (x.restore k f).depth = x.depth := rfl
@[simp] theorem restore_v (x : Ctx) (k : Nat) (f : List Byte) : (x.restore k f).v = x.v := rfl
@[simp] theorem restore_pc (x : Ctx) (k : Nat) (f : List Byte) : (x.restore k f).pc = (wordAt f 0x10).toNat / 4 * 4 := rfl

end Sys2Proof.Machine
end

