-- ==== Sys2Proof/Tests/Slice0.lean ====
section
/-! SUPPORT. Tests/Slice0.lean: small checks of the decoder, of single steps, and the witnesses of the statements. -/

set_option maxRecDepth 100000
set_option Elab.async false

namespace Sys2Proof.Tests

open Sys2Proof Sys2Proof.Machine

/-! ## Decoding: words written out from the encoding tables (R36, R44-R66) -/

theorem test_decode_add : decodeWord 0x00428610 = .ok (.add 2 (.reg 3 true) (.reg 4 false)) := by decide
theorem test_decode_addi : decodeWord 0x00C103FF = .ok (.addi 1 (.reg 1 false) (-1)) := by decide
theorem test_decode_shri : decodeWord 0x05870E0C = .ok (.shri 7 (.reg 7 false) 12) := by decide
theorem test_decode_movhi : decodeWord 0x08C95678 = .ok (.movhi 9 0x5678) := by decide
theorem test_decode_sel : decodeWord 0x09421025 = .ok (.selP4P7 2 (.reg 8 false) (.reg 9 false) 1) := by decide
theorem test_decode_lea : decodeWord 0x099634E2 = .ok (.lea 22 (.reg 26 false) (.reg 56 false) 2) := by decide
theorem test_decode_cmp : decodeWord 0x09DB0C1C = .ok (.cmp 3 .ltu (.reg 6 false) (.reg 7 false)) := by decide
theorem test_decode_cmpi : decodeWord 0x0A0871FF = .ok (.cmpi 1 .eq (.reg 56 false) (-1)) := by decide
theorem test_decode_sfcvt : decodeWord 0x0C040603 = .ok (.sfcvt 4 (.reg 3 false) .fp32 .fp16 true) := by decide
theorem test_decode_vmin : decodeWord 0x16160830 = .ok (.vminI32 (.reg 11) (.reg 4 0 false) (.reg 8 1 false)) := by decide
theorem test_decode_vcmp : decodeWord 0x1914406E = .ok (.vcmpLtI32 (.reg 10) (.reg 0 2 false) (.reg 7 3 false)) := by decide
theorem test_decode_vcvt : decodeWord 0x1A8E0407 = .ok (.vcvt (.reg 7) (.reg 2 0 false) .fp32 .e4m3 true) := by decide
theorem test_decode_vshuf : decodeWord 0x1D445824 = .ok (.vshufLo (.reg 2) 5 (.tap 0 0) (.tap 1 0)) := by decide
theorem test_decode_maccG : decodeWord 0x21012040 = .ok (.maccG false 9 (.reg 2 0 false)) := by decide
theorem test_decode_mdrain : decodeWord 0x214020A0 = .ok (.mdrain .row false 2 (.reg 1) .bf16 false) := by decide
theorem test_decode_mzero : decodeWord 0x21803F80 = .ok (.mzero false 0 127) := by decide
theorem test_decode_mrun : decodeWord 0x22000281 = .ok (.mrun 0 (.reg 5 false) 1) := by decide
theorem test_decode_lds : decodeWord 0x3045120A = .ok (.lds 5 (.reg 9 false) 2 .word) := by decide
theorem test_decode_sts : decodeWord 0x30C2060B = .ok (.sts (.reg 4 false) (.reg 6 false) 2 .double) := by decide
theorem test_decode_tld : decodeWord 0x32D142CC = .ok (.tld .ringB (.reg 10 false) (.reg 11 false) 12) := by decide
theorem test_decode_ldsc : decodeWord 0x33430F80 = .ok (.ldsc (.reg 6 false) 31) := by decide
theorem test_decode_amo : decodeWord 0x339C3830 = .ok (.amoAdd .package .rel 7 (.reg 3 false) false) := by decide
theorem test_decode_phase : decodeWord 0x35829400 = .ok (.phase (.reg 5 false) .cluster .rel) := by decide
theorem test_decode_cpost : decodeWord 0x40420524 = .ok (.cpost (.reg 4 false) (.reg 5 false) 9) := by decide
theorem test_decode_tbwait : decodeWord 0x4204000C = .ok (.tbwait (.reg 8 false) (.reg 0 false) 3) := by decide
theorem test_decode_plwait : decodeWord 0x42442060 = .ok (.plwait (.reg 8 false) 4 3) := by decide
theorem test_decode_pmov : decodeWord 0x43480300 = .ok (.pmovS 0x20 (.reg 6 false)) := by decide
theorem test_decode_pget : decodeWord 0x43C9A000 = .ok (.pget 9 0xA0) := by decide
theorem test_decode_cbld : decodeWord 0x444C3800 = .ok (.cbld 3 (.reg 7 false)) := by decide
theorem test_decode_mbld : decodeWord 0x45800381 = .ok (.mbld 0 (.reg 7 false) 1) := by decide
theorem test_decode_pbri : decodeWord 0xD0880004 = .ok (.pbri 1 4) := by decide
theorem test_decode_br : decodeWord 0x50E58000 = .ok (.br 4 5 true) := by decide
theorem test_decode_crd : decodeWord 0x611E0410 = .ok (.crd 30 0x041) := by decide
theorem test_decode_trap : decodeWord 0x60400042 = .ok (.trap 0x42) := by decide
theorem test_decode_setpool : decodeWord 0x62028C00 = .ok (.setpool (.reg 5 false) 6) := by decide
/-- R36, R55: class 7, an unassigned op and a reserved field are refused by name. -/
theorem test_decode_refused : decodeWord 0x70000000 = .error .class7 ∧
    decodeWord 0x3FC00000 = .error .unassignedOp ∧ decodeWord 0x52000001 = .error .reservedField := by decide

/-! ## Well-formedness: an ill-formed term for each check -/

theorem test_wf_destination : (Instr.add 48 (.reg 1 false) (.reg 2 false)).wf = false := by decide
theorem test_wf_source : (Instr.add 1 (.reg 50 false) (.reg 2 false)).wf = false := by decide
theorem test_wf_sfcvt : (Instr.sfcvt 1 (.reg 2 false) .fp32 .e4m3 false).wf = false := by decide
theorem test_wf_mdrain : (Instr.mdrain .row false 0 (.reg 1) .i32 false).wf = false := by decide
theorem test_wf_vcvt : (Instr.vcvt (.reg 1) (.reg 2 0 false) .i8 .i32 false).wf = false := by decide
theorem test_wf_mzero : (Instr.mzero false 64 64).wf = false ∧ (Instr.mzero false 64 63).wf = true := by decide
theorem test_wf_mrun : (Instr.mrun 255 (.reg 1 false) 1).wf = false ∧ (Instr.mrun 255 (.reg 1 false) 0).wf = true := by decide
theorem test_wf_mbld : (Instr.mbld 200 (.reg 1 false) 100).wf = false := by decide
theorem test_wf_amo : (Instr.amoAdd .core .none 0 (.reg 1 false) false).wf = false := by decide
theorem test_wf_cas : (Instr.amoCas .core .none 3 (.reg 1 false) false).wf = false ∧
    (Instr.amoCas .core .none 4 (.reg 1 false) false).wf = true := by decide
theorem test_wf_plwait : (Instr.plwait (.reg 1 false) 9 2).wf = false := by decide
theorem test_wf_ports : (Instr.pmovS 0x40 (.reg 1 false)).wf = false ∧ (Instr.pmovV 0x00 (.reg 1 0 false)).wf = false ∧
    (Instr.pget 1 0x20).wf = false := by decide
theorem test_wf_control : (Instr.crd 1 0x005).wf = false ∧ (Instr.cwr (.reg 1 false) 0x110).wf = false ∧
    (Instr.crd 1 0x123).wf = true := by decide

/-! ## Single steps -/

/-- Context 0 of core 0 with s1, s2 and s3 set. -/
def s3 (a b c : Nat) : State :=
  State.reset.updMe fun x => { x with s := [(1, BitVec.ofNat 64 a), (2, BitVec.ofNat 64 b), (3, BitVec.ofNat 64 c)] }

/-- The value of the landing last put in flight. -/
def landed : Host.Outcome State Fault Refusal → Nat
  | .next t => (t.me.flights.getLast?.map fun f => f.val.toNat).getD 0
  | _ => 0

/-- Lane l of it. -/
def landedLane (l : Nat) : Host.Outcome State Fault Refusal → Nat
  | .next t => (t.me.flights.getLast?.map fun f => (lane f.wide l).toNat).getD 0
  | _ => 0

/-- The flags of it. -/
def landedFlags : Host.Outcome State Fault Refusal → Nat
  | .next t => (t.me.flights.getLast?.map fun f => f.flags.toNat).getD 0
  | _ => 0

def r1 : SSrc := .reg 1 false
def r2 : SSrc := .reg 2 false

/-- Vector registers v1 and v2. -/
def v2 (a b : Nat → Nat) : State :=
  State.reset.updMe fun x => { x with v := [(1, tab 128 fun i => BitVec.ofNat 32 (a i)), (2, tab 128 fun i => BitVec.ofNat 32 (b i))] }

def w1 : VSrc := .reg 1 0 false
def w2 : VSrc := .reg 2 0 false

theorem test_add_wraps : landed (exec (.add 4 r1 r2) (s3 (2 ^ 64 - 1) 2 0)) = 1 := by decide +kernel
theorem test_mulh : landed (exec (.mulh 4 r1 r2) (s3 (2 ^ 64 - 1) 3 0)) = 2 ^ 64 - 1 := by decide +kernel
theorem test_mulhu : landed (exec (.mulhu 4 r1 r2) (s3 (2 ^ 63) 6 0)) = 3 := by decide +kernel
theorem test_div : landed (exec (.div 4 r1 r2) (s3 (2 ^ 64 - 7) 2 0)) = 2 ^ 64 - 3 := by decide +kernel
theorem test_rem : landed (exec (.rem 4 r1 r2) (s3 (2 ^ 64 - 7) 2 0)) = 2 ^ 64 - 1 := by decide +kernel
theorem test_div_overflow : landed (exec (.div 4 r1 r2) (s3 (2 ^ 63) (2 ^ 64 - 1) 0)) = 2 ^ 63 := by decide +kernel
theorem test_divu_zero : landed (exec (.divu 4 r1 r2) (s3 9 0 0)) = 2 ^ 64 - 1 := by decide +kernel
theorem test_sar_wide : landed (exec (.sar 4 r1 r2) (s3 (2 ^ 63) 64 0)) = 2 ^ 64 - 1 := by decide +kernel
theorem test_shl_wide : landed (exec (.shl 4 r1 r2) (s3 1 64 0)) = 0 := by decide +kernel
theorem test_extr : landed (exec (.extr 4 r1 r2) (s3 0xF0 0x404 0)) = 2 ^ 64 - 1 := by decide +kernel
theorem test_ins : landed (exec (.ins 3 r1 r2) (s3 0xAB 0x804 0xFFFF)) = 0xFABF := by decide +kernel
theorem test_clz : landed (exec (.clz 4 r1) (s3 1 0 0)) = 63 := by decide +kernel
theorem test_ctz_zero : landed (exec (.ctz 4 r1) (s3 0 0 0)) = 64 := by decide +kernel
theorem test_movhi : landed (exec (.movhi 1 0x5678) (s3 0x1234 0 0)) = 0x12345678 := by decide +kernel
theorem test_lea : landed (exec (.lea 4 r1 r2 3) (s3 100 5 0)) = 140 := by decide +kernel
theorem test_cmpi_unsigned : landed (exec (.cmpi 1 .ltu r1 (-1)) (s3 5 0 0)) = 1 := by decide +kernel
/-- 1 + 2^-24 is a tie, rounded to the even 1. -/
theorem test_sfadd_tie : landed (exec (.sfadd 4 r1 r2) (s3 0x3F800000 0x33800000 0)) = 0x3F800000 := by decide +kernel
theorem test_sfmul : landed (exec (.sfmul 4 r1 r2) (s3 0x40400000 0x40A00000 0)) = 0x41700000 := by decide +kernel
theorem test_sfcvt_half : landed (exec (.sfcvt 4 r1 .fp32 .fp16 false) (s3 0x3FC00000 0 0)) = 0x3E00 := by decide +kernel
/-- Nothing exact raises a flag. -/
theorem test_sfmul_flags : landedFlags (exec (.sfmul 4 r1 r2) (s3 0x40400000 0x40A00000 0)) = 0 := by decide +kernel
theorem test_vsub_wraps : landedLane 7 (exec (.vsubI32 (.reg 3) w1 w2) (v2 (fun i => i) (fun _ => 8))) = 0xFFFFFFFF := by decide +kernel
theorem test_vred_add : landedLane 5 (exec (.vredAdd (.reg 3) w1 true) (v2 (fun i => i) (fun _ => 0))) = 8128 := by decide +kernel
theorem test_vscan_add : landedLane 4 (exec (.vscanAdd (.reg 3) w1 true) (v2 (fun i => i + 1) (fun _ => 0))) = 15 := by decide +kernel
theorem test_vcmp_lt : landedLane 1 (exec (.vcmpLtF32 (.reg 3) w1 w2) (v2 (fun _ => 0xBF800000) (fun _ => 0))) = 0xFFFFFFFF := by
  decide +kernel

/-- The scratchpad of core 0 begins at pool unit 32 (R223). -/
def scr (a : Nat) (bs : List Byte) : State := State.reset.updMyCore fun c => c.setScr a bs

theorem test_ldsS_byte : landed (exec (.ldsS 4 r1 3 .byte) (scr 3 [0x80])) = 2 ^ 64 - 128 := by decide +kernel
theorem test_lds_half : landed (exec (.lds 4 r1 1 .half) (scr 2 [0x34, 0x12])) = 0x1234 := by decide +kernel
theorem test_sts_little_endian :
    (match exec (.sts r1 (.reg 4 false) 1 .word) (s3 0x11223344 0 0) with
      | .next t => t.mycore.pool.readN (32 * 8192 + 4) 4
      | _ => []) = [0x44, 0x33, 0x22, 0x11] := by decide +kernel

/-- An instruction word of class 0 in a bundle at 0x1000: four words, so the next bundle is at 0x1010, and the add's
landing is in flight. -/
theorem test_step_add :
    (match step (State.reset.withFetchWord 32 0x00428610) with
      | .next t => (t.me.pc, t.me.flights.length)
      | _ => (0, 0)) = (0x1010, 1) := by decide +kernel
/-- R383: trap 0x0042 enters the handler with cause 0x30 and its code. -/
theorem test_step_trap :
    (match step ((State.reset.withFetchWord 32 0x60400042).updMyCore fun c => { c with tvec := 0x4000 }) with
      | .next t => (t.me.pc, t.me.level, t.me.tcause.toNat)
      | _ => (0, 0, 0)) = (0x4000, 1, 0x42 * 2 ^ 48 + 0x30) := by decide +kernel

/-! ## Witnesses: states and operands that meet the statements' hypotheses -/

/-- An outcome is a next state. -/
def isNext : Host.Outcome State Fault Refusal → Bool
  | .next _ => true
  | _ => false

theorem next_of_isNext {o : Host.Outcome State Fault Refusal} (h : isNext o = true) : ∃ t, o = .next t := by
  cases o with
  | next t => exact ⟨t, rfl⟩
  | fault f => simp [isNext] at h
  | refused r => simp [isNext] at h

/-- The state of a next outcome. -/
def stateOf : Host.Outcome State Fault Refusal → State
  | .next t => t
  | _ => State.reset

theorem next_stateOf {o : Host.Outcome State Fault Refusal} (h : isNext o = true) : o = .next (stateOf o) := by
  cases o with
  | next t => rfl
  | fault f => simp [isNext] at h
  | refused r => simp [isNext] at h

/-- An outcome is a next state with a property of it. -/
theorem next_and {o : Host.Outcome State Fault Refusal} {P : State → Prop} (h : isNext o = true) (p : P (stateOf o)) :
    ∃ t, o = .next t ∧ P t := ⟨_, next_stateOf h, p⟩

theorem test_witness_ResetState : (511 : Nat) < 512 ∧ (3 : Nat) < 4 ∧ (0 : Nat) < 7 ∧ 0x008 ≤ 0x00B ∧ 0x018 ≤ 0x01B ∧
    0x040 ≤ 0x044 ∧ 0x050 ≤ 0x053 := by decide

/-- The bundle of test_step_add, with the add in its first slot. -/
def bun : State := State.reset.withFetchWord 32 0x00428610
def bunU : State := ({ bun with issue := Issue.none }).refresh bun.cur
def bunF : State := ({ bunU with issue := { Issue.none with addr := 0x1000 } }.fetchWords 0 true 8 0x1000).1
def bunI : List Instr := [.add 2 (.reg 3 true) (.reg 4 false), .nopV, .nopM, .nopB]
def bunW : List Nat := [0x00428610, 0x10000000, 0x20000000, 0xD0000000]
def bunG : State := ({ bunF with issue := { bunF.issue with next := 0x1010, slots := bunI } }).begin_
def bunT : State := stateOf (State.runSlots bunI bunG)

theorem test_witness_StepRunsTheBundle :
    { bun with agenda := [Move.event .nopS] }.agenda = .event .nopS :: [] ∧
    exec .nopS { bun with issue := { bun.issue with slots := [] } } = .next { bun with issue := { bun.issue with slots := [] } } ∧
    checkBundle bunW false = .ok bunI ∧
    bun.agenda = [] ∧ bun.stopped = false ∧ bun.burst < burstMax ∧ bunU.cur = bun.cur ∧ bunU.mayOffer = true ∧
    bunU.mycore.playing bunU.j = false ∧ bunU.me.pc % 4 = 0 ∧ bunU.me.pc = 0x1000 ∧
    { bunU with issue := { Issue.none with addr := bunU.me.pc } }.fetchWords bunU.cur (bunU.me.level == 0) 8 bunU.me.pc
      = (bunF, .ok bunW) ∧
    bunF.mycore.playing bunF.j = false ∧ bunG.precheck bunI = .ok () ∧ State.runSlots bunI bunG = .next bunT ∧
    bunT.issue.void = none ∧ bunT.endVoid = none := by
  and_intros <;> first | decide +kernel | exact Prod.ext rfl (by decide +kernel) | exact next_stateOf (by decide +kernel)

theorem test_witness_DecodeEncode :
    (Instr.add 2 (.reg 3 true) (.reg 4 false)).wf = true ∧ (Instr.add 2 (.reg 3 true) (.reg 4 false)).opcode.isSome = true ∧
    (Instr.crd 30 0x041).wf = true ∧ (Instr.crd 30 0x041).opcode.isSome = true := by decide

theorem test_witness_DecodedWordIsTheEncoding : decodeWord 0x00428610 = .ok (.add 2 (.reg 3 true) (.reg 4 false)) ∧
    decodeWord 0x80428610 = .ok (.add 2 (.reg 3 true) (.reg 4 false)) := by decide

theorem test_witness_StepKeepsMemoryCanonical : bun.mem.wf = true ∧ ∃ t, step bun = .next t :=
  ⟨by decide +kernel, next_of_isNext (by decide +kernel)⟩

theorem test_witness_MemoryReadsBackWrites : ((5 : Nat) < 8 ∨ 8 + 2 ≤ 5) ∧ ((11 : Nat) < 8 ∨ 8 + 2 ≤ 11) ∧ (1 : Nat) < 2 ∧
    State.reset.mem.wf = true := by decide

/-- s5 empty, s6 empty-faulted with a load's compact record. -/
def feState : State := State.reset.updMe fun x => { x with
  fe := [(5, .empty), (6, .faulted)], s := [(6, (⟨0x20, 1, 0x88, none, false⟩ : FaultRec).compact)] }

theorem test_witness_SourceReads : feState.rd.feS 4 = .full ∧ feState.rd.feS 5 = .empty ∧ feState.rd.feS 6 = .faulted := by
  decide

/-- Two landings of x0 that reach s1 at the next tick. -/
def two : List Flight :=
  [⟨.x0, .s 1, 5, [], 1, 0, false, 0, 0, false, .none⟩, ⟨.x0, .s 1, 6, [], 1, 0, false, 0, 0, false, .none⟩]

theorem test_witness_LandsAtItsTick :
    let c := Core.reset.setCtx 0 { Ctx.reset with flights := two }
    let f : Flight := nth ⟨.x0, .none, 0, [], 0, 0, false, 0, 0, false, .none⟩ two 0
    let g : Flight := nth ⟨.x0, .none, 0, [], 0, 0, false, 0, 0, false, .none⟩ two 1
    ((c.ctx 0).flights = [f, g] ∧ f.unit = .x0 ∧ g.unit = .x0 ∧ f.dest = .s 1 ∧ g.dest = .s 1 ∧
      f.home = (c.ctx 0).depth ∧ g.home = (c.ctx 0).depth ∧ f.rem = 1 ∧ g.rem = 1 ∧ f.beat = .none ∧ g.beat = .none ∧
      f.shadow = (c.ctx 0).shadowed 1 ∧ g.shadow = (c.ctx 0).shadowed 1) ∧
    (Core.reset.ctx 0).flights = [] ∧ 1 ≤ 3 ∧ 2 < 3 := by decide

theorem test_witness_ScalarVectorFrame :
    let s := s3 1 2 3
    (Instr.add 4 r1 r2).opcode = some (0, 1) ∧ (0 : Nat) < 2 ∧ s.issue.void = none ∧
    ∃ t, exec (.add 4 r1 r2) s = .next t ∧ t.issue.void = none := by
  and_intros <;> first | decide +kernel | exact next_and (by decide +kernel) (by decide +kernel)

theorem test_witness_ScalarIntegerResults : (s3 7 9 1).readS r1 = .ok 7 ∧ (s3 7 9 1).readS r2 = .ok 9 ∧
    (s3 7 9 1).readS (.tap true 3) = .ok 0 := by decide

theorem test_witness_ScalarShiftAndDivision : (s3 (2 ^ 63) (2 ^ 64 - 1) 1).readS r1 = .ok (BitVec.ofNat 64 (2 ^ 63)) ∧
    (s3 (2 ^ 63) (2 ^ 64 - 1) 1).readS r2 = .ok (BitVec.ofNat 64 (2 ^ 64 - 1)) ∧ (s3 1 64 0).readS r2 = .ok 64 ∧
    (s3 1 0 0).readS r2 = .ok 0 := by decide

theorem test_witness_ScalarMovesAndCounts : (s3 7 9 1).readS r1 = .ok 7 ∧ (s3 7 9 1).readD 2 = .ok 9 ∧
    (7 : Word).toNat ≠ 0 ∧ (s3 0 9 1).readS r1 = .ok 0 := by decide

theorem test_witness_SelectAndLea : (s3 7 9 1).readS r1 = .ok 7 ∧ (s3 7 9 1).readS r2 = .ok 9 ∧ (2 : BitVec 2) ≠ 0 := by
  decide

theorem test_witness_BitFieldResults : (s3 7 0x404 1).readS r1 = .ok 7 ∧ (s3 7 0x404 1).readS r2 = .ok 0x404 ∧
    (s3 7 9 1).readD 3 = .ok 1 := by decide

theorem test_witness_CompareResults : (s3 7 9 1).readS r1 = .ok 7 ∧ (s3 7 9 1).readS r2 = .ok 9 := by decide

theorem test_witness_ScalarFloatResults : (s3 0x3F800000 0x33800000 1).readS r1 = .ok 0x3F800000 ∧
    (s3 0x3F800000 0x33800000 1).readS r2 = .ok 0x33800000 ∧ (s3 7 9 1).readD 3 = .ok 1 := by decide

theorem test_witness_LaneSelection : (s3 7 9 1).readS r1 = .ok 7 := by decide

theorem test_witness_VectorConvert : CvtFmt.fp32 ≠ .bf16 ∧ (0 : Nat) < 128 ∧ 128 * widthOf .bf16 ≤ 32 * 127 ∧ (4 : Nat) < 5 := by
  decide

theorem test_witness_ShufflePatterns : (s3 512 9 1).readS r1 = .ok 512 ∧ (s3 512 9 1).scratchOk 512 256 256 = true ∧
    (5 : Nat) ≠ (3 : BitVec 6).toNat := by decide

/-- vpld flips the active bank of its entry, whichever it is (R112). -/
theorem test_witness_ShufflePatterns_bank : ∀ b ∈ [false, true],
    ((stateOf (exec (.vpld 3 r1) ((s3 512 9 1).updMyCore fun c => { c with
      shuffle := [(3, ⟨none, none, b⟩)] }))).mycore.shuffle.get ⟨none, none, false⟩ 3).active1 = !b := by
  decide +kernel

/-! The M class. -/

/-- Core 0's array belongs to context 0. -/
def own : State := (s3 7 1 2).updMyCore fun c => { c with owner := some 0 }

def tile0 : Tile := ⟨true, false, false, 0, 32768, 0, 0, true, 0, 0⟩

theorem test_witness_ArrayOwnership : own.me.level = 0 ∧ own.readS r1 = .ok 7 ∧ (s3 7 9 1).mycore.owner = none ∧
    (own.updMyCore fun c => { c with owner := some 2 }).mycore.owner = some 2 ∧
    2 ≠ 4 * own.cur + own.j ∧ Instr.mswap ∈ [Instr.mpush false, .mswap] := by decide

/-- Every beat of a context takes the array that nobody owns; s1 is a value of mcfg, and of mrun a count of 0. -/
def freeArr : State := ((s3 0x8800000000 1 2).updMyCore fun c => { c with atiles := [tile0], btiles := [tile0] })
def beats8 : List Instr := [.mpush false, .mswap, .macc false true 3, .maccG true 5 (.reg 0 0 false),
  .mdrain .row true 1 (.reg 1) .bf16 false, .mzero false 0 127, .mcfg r1, .mrun 0 r1 0]

theorem test_witness_ArrayOwnership_free : freeArr.me.level = 0 ∧ freeArr.readS r1 = .ok 0x8800000000 ∧
    freeArr.mycore.owner = none ∧ freeArr.mycore.clearFifo = freeArr.mycore ∧ mcfgCheck 0x8800000000 = none ∧
    (0x8800000000 : Word).toNat % 2 ^ 32 = 0 ∧
    ∀ i ∈ beats8, (stateOf (exec i freeArr)).issue.void = none ∧ (stateOf (exec i freeArr)).mycore.owner = some 0 ∧
      isNext (exec i freeArr) = true := by decide +kernel

/-- A tile of 128 bf16 rows on the A ring and of 64 pairs on the B ring, and formats of MCTL at bf16. -/
def tileA : Tile := ⟨true, false, false, 0, 32768, 0, 0, true, 0, 0⟩
def beats : State := own.updMyCore fun c => { c with atiles := [tileA], btiles := [tileA] }

theorem test_witness_MatrixBeats : beats.ownsArray = true ∧ beats.mycore.atiles = tileA :: [] ∧
    beats.mycore.btiles = tileA :: [] ∧ tileA.valid = true ∧ tileA.counted = false ∧ beats.me.fmt false < 5 ∧
    beats.me.fmt true < 5 ∧ bit beats.me.mctl 29 = false ∧ bit beats.me.mctl 30 = false ∧
    beats.scratchOk 0 (128 * fmtBytes (beats.me.fmt false)) (128 * fmtBytes (beats.me.fmt false)) = true ∧
    (lane (beats.readV w1) 3).toNat = 0 := by decide +kernel

theorem test_witness_BeatLandings : (5 : Nat) ≠ 2 ∧ (5 : Nat) ≠ 2 + 1 ∧ 0 < [(1 : W32), 2].length ∧
    0 < ((Core.reset.acc false).get zeroRow 3).length ∧ (0 : Nat) < 1 ∧ ∀ m, m < 1 → (5 : Nat) ≠ (3 + m) % 128 := by
  refine ⟨by decide, by decide, by decide, by decide, by decide, ?_⟩
  intro m h
  omega

theorem test_witness_MatrixConfiguration : own.ownsArray = true ∧ own.readS r1 = .ok 7 ∧
    (let f := fun (v : Word) h l => bits v h l
     f 0x100 15 8 ≠ 0 ∧ ¬ f 0x7 3 0 < 7 ∧ f 0x7 63 43 = 0 ∧ f 0x7 28 28 = 0 ∧ f 0x7 15 8 = 0 ∧
     f 0x0000001100000000 35 32 = 1 ∧ f 0x0000001100000000 3 0 = 0 ∧
     f 0x0000008880000000 31 31 = 1 ∧ f 0x0000008880000000 7 4 = 0 ∧ f 0x0000008880000000 35 32 = 8 ∧
     f 0x0000008800000000 35 32 = 8 ∧ f 0x0000008800000000 39 36 = 8 ∧ f 0x0000008800000000 3 0 < 7 ∧
     f 0x0000008800000000 7 4 < 7 ∧ f 0x0000008800000000 31 31 = bits own.me.mctl 31 31 ∧
     f 0x0000008800000000 42 40 = bits own.me.mctl 42 40) := by decide +kernel

/-- Beat program: entry 0 is mswap, entry 1 mzero with STEP; a play of context 0 stands at entry 1. -/
def playing : State := own.updMyCore fun c => { c with
  beats := [(0, 0x20800000), (1, 0xA1803F80)], play := some ⟨0, 0, [0x20800000, 0xA1803F80], 0, 2, 1, 3, 2⟩ }

/-- R138, R379: a played beat's fault of a cause without an address leaves its TINFO in DFAULT1: the ring of an underflow. -/
theorem test_played_fault :
    (match playFault ⟨0, 0, [], 3, 1, 0, 2, 1⟩ (.trap ⟨0x08, 0, 1, none, none, false⟩) with
      | .trap r => r.df.map (·.addr)
      | _ => none) = some 1 := by decide

theorem test_witness_BeatPlays :
    own.ownsArray = true ∧ (own.updMe fun x => { x with s := [] }).readS r1 = .ok 0 ∧ own.readS r1 = .ok 7 ∧
    (7 : Word).toNat % 2 ^ 32 ≠ 0 ∧ decodeWord ((playing.mycore.beats.get 0x20000000 0).toNat % 2 ^ 31) = .ok .mswap ∧
    playing.mycore.play = some ⟨0, 0, [0x20800000, 0xA1803F80], 0, 2, 1, 3, 2⟩ ∧ playing.j = 0 ∧ playing.me.depth = 0 ∧
    decodeWord (0xA1803F80 % 2 ^ 31) = .ok (.mzero false 0 127) := by decide +kernel

/-! The scratchpad and device memory. -/

theorem test_witness_ScratchpadLoads : (s3 512 9 1).readS r1 = .ok 512 ∧
    (s3 512 9 1).scratchOk (BitVec.ofInt 64 ((512 : Word).toInt + (1 : BitVec 7).toInt * Size.word.bytes)).toNat 4 4 = true ∧
    (s3 512 9 1).scratchOk (BitVec.ofInt 64 ((512 : Word).toInt + (-1 : BitVec 10).toInt * 512)).toNat 512 512 = true := by
  decide

theorem test_witness_ScratchpadStores : (s3 7 512 1).readS r1 = .ok 7 ∧ (s3 7 512 1).readS r2 = .ok 512 ∧
    (s3 7 512 1).scratchOk (addrOf (512 : Word) (3 : BitVec 6) Size.double.bytes) 8 8 = true ∧
    (s3 7 512 1).scratchOk (addrOf (512 : Word) (1 : BitVec 7) 512) 512 512 = true := by decide

theorem test_witness_AddressFaults : (s3 9 512 1).readS r1 = .ok 9 ∧ (s3 9 512 1).readS r2 = .ok 512 ∧
    addrOf (9 : Word) (1 : BitVec 7) Size.word.bytes % 4 ≠ 0 ∧
    (s3 9 512 1).mycore.spsz < addrOf (BitVec.ofNat 64 (2 ^ 20) : Word) (1 : BitVec 7) Size.word.bytes + 4 ∧
    (s3 9 512 1).quiet = true ∧ (s3 9 512 1).readD 2 = .ok 512 ∧ (s3 9 512 1).readD (2 + 1) = .ok 1 ∧
    (9 : Word).toNat % (if true then 4 else 8) ≠ 0 := by decide

/-- Virtual device 0 maps its first gigabyte to physical address 0, readable and writable at user level; s1 = 4096. -/
def vm : State := ({ s3 4096 7 2 with
  mem := (State.reset.mem.writeN 0x10000 (toBytes 8 0x20001)).writeN 0x20000 [0x3F] }).updVdev 0 fun d =>
    { d with ptbase := 0x10001 }
/-- vm with the local window of core 0 on at 2 MB × 8. -/
def lw : State := ((vm.updMyCore fun c => { c with lwbase := 0x1000001 }).updMe fun x =>
  { x with s := [(1, 0x1000000), (2, 7), (3, 2)] })

/-- A level-0 entry of 0 translates nothing: an address of another 512 GB. -/
def far : Nat := 2 ^ 40

/-- R159: an atomic add of 7 to the zeros at 4096 leaves 7 there. -/
theorem test_amo_add : (match exec (.amoAdd .cluster .none 2 r1 false) vm with
    | .next t => t.mem.readN 4096 8 | _ => []) = [7, 0, 0, 0, 0, 0, 0, 0] := by decide +kernel

/-- A read that gives bytes, and one that is refused. -/
theorem answered {o : State × Except (Nat × Nat) (List Byte)} {b : List Byte} (h : o.2 = .ok b) : ∃ u b, o = (u, .ok b) :=
  ⟨o.1, b, Prod.ext rfl h⟩
theorem declined {o : State × Except (Nat × Nat) (List Byte)} {e : Nat × Nat} (h : o.2 = .error e) :
    ∃ u e, o = (u, .error e) := ⟨o.1, e, Prod.ext rfl h⟩

theorem test_witness_DeviceLoads :
    vm.readS r1 = .ok 4096 ∧ vm.quiet = true ∧ (4 : SDst) ≠ 0 ∧ vm.deviceOk 4100 4 = true ∧
    (∃ u bs, vm.loadMem 4100 4 = (u, .ok bs)) ∧ (∃ u bs, (vm.l1Acquire vm.cur).loadMem 4100 4 = (u, .ok bs)) ∧
    (4100 : Nat) = (BitVec.ofInt 64 ((4096 : Word).toInt + (1 : BitVec 7).toInt * Size.word.bytes)).toNat ∧
    vm.deviceOk far 4 = true ∧ (∃ u e, vm.loadMem far 4 = (u, .error e)) ∧
    lw.readS r1 = .ok 0x1000000 ∧ lw.mycore.target lw.me.level 0x1000000 4 = .pool 262144 ∧
    lw.mycore.windowChanging lw.me.level 0x1000000 4 = false ∧ bit vm.mycore.lwbase 0 = false ∧
    vm.moving (vm.tlbs vm.cur) (vm.vdevOf vm.cur) 4100 1 = false ∧
    vm.translate (vm.tlbs vm.cur) (vm.vdevOf vm.cur) 4100 .r (vm.me.level == 0) = .ok ⟨4100, 0x3F, 2 ^ 30, 0x20000⟩ ∧
    vm.translate (vm.tlbs vm.cur) (vm.vdevOf vm.cur) far .r (vm.me.level == 0) = .error 1 ∧
    vm.moving (vm.tlbs vm.cur) (vm.vdevOf vm.cur) far 1 = false :=
  by and_intros <;> first | decide +kernel | exact answered (b := [0, 0, 0, 0]) (by decide +kernel) |
    exact declined (e := (1, far)) (by decide +kernel)

theorem test_witness_LoadsReadMemory :
    (∃ t, vm.translate (vm.tlbs vm.cur) (vm.vdevOf vm.cur) 4100 .r (vm.me.level == 0) = .ok t ∧ t.pa % Size.word.bytes = 0 ∧
      vm.readCause (t.pa / 128 * 128) 128 = 0 ∧ vm.mycore.l1Line t.pa = none) ∧ vm.errorFree = true ∧
    (∃ u r, vm.loadMem 4100 Size.word.bytes = (u, r)) ∧ vm.holdsWritten vm.cur 5 = false :=
  ⟨⟨⟨4100, 0x3F, 2 ^ 30, 0x20000⟩, by decide +kernel, by decide, by decide +kernel, by decide +kernel⟩, rfl,
    ⟨_, _, rfl⟩, by decide +kernel⟩

/-- st s2, [s1 + 8] of a double at 4096 + 8. -/
theorem test_witness_DeviceStores :
    vm.readS r2 = .ok 7 ∧ vm.readS r1 = .ok 4096 ∧ vm.quiet = true ∧ vm.deviceOk 4104 8 = true ∧
    (∀ r ∈ [vm, vm.release vm.cur vm.j],
      r.translate (r.tlbs vm.cur) (vm.vdevOf vm.cur) 4104 .w (vm.me.level == 0) = .ok ⟨4104, 0x3F, 2 ^ 30, 0x20000⟩) ∧
    4104 % 8 = 0 ∧ vm.gone 4104 8 = false ∧ vm.errorFree = true ∧ vm.holdsWritten vm.cur 4103 = false ∧
    lw.mycore.target lw.me.level 0x1000000 8 = .pool 262144 ∧ lw.mycore.windowChanging lw.me.level 0x1000000 8 = false := by
  decide +kernel

/-- A store fault is held. -/
def heldFault : State := vm.updMe fun x => { x with storeFault := some ⟨1, far, 0x1000⟩ }

theorem test_witness_StoreFaults :
    vm.readS r2 = .ok 7 ∧ vm.quiet = true ∧ vm.deviceOk far 8 = true ∧
    (vm.updMe fun x => { x with s := [(1, BitVec.ofNat 64 far)] }).readS r1 = .ok (BitVec.ofNat 64 far) ∧
    vm.translate (vm.tlbs vm.cur) (vm.vdevOf vm.cur) far .w (vm.me.level == 0) = .error 1 ∧
    heldFault.rd.storeFault = some ⟨1, far, 0x1000⟩ ∧ heldFault.readS r1 = .ok 4096 ∧ heldFault.readS r2 = .ok 7 ∧
    Instr.endB ∈ [Instr.suspend, .endB] := by decide +kernel

/-- A pmark that would be honoured, as its bundle's last slot and in a bundle with a nop. -/
theorem test_witness_StoreFaults_pmark :
    let s := heldFault.updMe fun x => { x with preq := true }
    s.rd.storeFault = some ⟨1, far, 0x1000⟩ ∧ s.me.preq = true ∧ s.me.level = 0 ∧ s.me.uih = false ∧
    s.mycore.settled s.j = true ∧ s.issue.slots = [] ∧ Instr.pmark ∈ [Instr.nopS, .pmark] ∧
    ∀ m ∈ [Instr.nopS, .pmark], schedules m = false ∧ privInfo m = none := by decide +kernel

theorem test_witness_Atomics :
    vm.quiet = true ∧ vm.readS r1 = .ok 4096 ∧ vm.readD 2 = .ok 7 ∧ vm.readD (2 + 1) = .ok 2 ∧ vm.deviceOk 4096 8 = true ∧
    (∀ r ∈ [vm, vm.release vm.cur vm.j, vm.register vm.cur vm.j],
      r.translate (r.tlbs vm.cur) (vm.vdevOf vm.cur) 4096 .w (vm.me.level == 0) = .ok ⟨4096, 0x3F, 2 ^ 30, 0x20000⟩ ∧
      ((r.fillTlb vm.cur 4096).l1Flush vm.cur 4096).readCause 4096 8 = 0) ∧
    vm.upset = [] ∧ bit (vm.vdev (vm.vdevOf vm.cur)).hintbase 63 = false ∧
    lw.quiet = true ∧ lw.readS r1 = .ok 0x1000000 ∧ lw.mycore.target lw.me.level 0x1000000 4 = .pool 262144 ∧
    lw.mycore.windowChanging lw.me.level 0x1000000 4 = false ∧ lw.readD 2 = .ok 7 ∧ lw.readD (2 + 1) = .ok 2 ∧
    AmoOrder.acq = .acq ∧ Scope.cluster ≠ .core := by decide +kernel

/-- A line of L1 with one written and one clean byte; a releaser on record. -/
def dirty : State := { vm.updMyCore fun c => { c with
    l1 := [⟨8, 128, [(0, 0)], 0, [(0, ⟨0xAB, true, false⟩), (1, ⟨0xCD, false, false⟩)]⟩] } with
  phases := [⟨4096, 1, 4⟩] }
def acquiring : State := dirty.updCtx 0 0 fun x => { x with phaseAcq := [(4096, 4)], phaseRel := [(4096, 4)] }

theorem test_witness_OrderingSlots :
    dirty.quiet = true ∧ Scope.package ≠ .core ∧ dirty.holdsWritten dirty.cur 4096 = true ∧
    dirty.holdsWritten dirty.cur 4097 = false ∧ dirty.errorFree = true ∧ dirty.gone (4096 / 512 * 512) 512 = false ∧
    (∃ l ∈ dirty.mycore.l1, ∃ k ∈ l.bytes, l.pa = 4096 / 512 ∧ k.1 = 4096 % 512 ∧ k.2.written = true ∧
      (∀ l' ∈ dirty.mycore.l1, l'.pa = l.pa → l' = l) ∧ ∀ k' ∈ l.bytes, k'.1 = k.1 → k' = k) ∧
    dirty.readS r1 = .ok 4096 ∧ dirty.deviceOk 4096 8 = true ∧
    dirty.translate (dirty.tlbs dirty.cur) (dirty.vdevOf dirty.cur) 4096 .r (dirty.me.level == 0)
      = .ok ⟨4096, 0x3F, 2 ^ 30, 0x20000⟩ ∧
    (4096, 4) ∈ (acquiring.ctx 0 0).phaseRel ∧ (acquiring.ctx 0 0).phaseAcq = (4096, 4) :: [] ∧
    (∃ r ∈ acquiring.phases, r.pa = 4096 ∧ r.scope ≠ 0 ∧ scopeHolds r.scope r.core 0 = true ∧
      scopeHolds 4 0 r.core = true) := by decide +kernel


/-- vm with handle 0, a dense 128 by 128 bf16 tensor at 0x100000, at HTBASE; s1 asks for its 128 by 128 tile, s2 = 0. -/
def dense : List Byte :=
  toBytes 8 0x100000 ++ [1, 0, 2, 2] ++ toBytes 4 0 ++ toBytes 3 128 ++ toBytes 3 128 ++ toBytes 3 1 ++ toBytes 3 1
    ++ toBytes 3 1 ++ [0] ++ toBytes 5 2 ++ toBytes 5 256 ++ toBytes 15 0 ++ toBytes 7 0
def tens : State := ({ vm with mem := vm.mem.writeN 0x40000 dense }.updVdev 0 fun d => { d with htbase := 0x40001 }).updMe
  fun x => { x with s := [(1, BitVec.ofNat 64 (127 * 2 ^ 24 + 127 * 2 ^ 16)), (2, 0), (3, 0)] }
def tensD : Nat := 127 * 2 ^ 24 + 127 * 2 ^ 16
def tensH : Handle := ⟨0x100000, 0, 2, 2, 0, 0, [128, 128, 1, 1, 1], [2, 256, 0, 0, 0], 0⟩
def tensU (w : TldWhere) : State := (tens.tileEntries tens.cur tens.me.level (tileReq tensD 0) w false).1
def tileO (st : Bool) : TileOp := ⟨st, none, .scratch, 0, 256, [some [1, 2]], 0, none, 1, 0⟩
def tensP (st : Bool) : Prod := ⟨5, 0, false, 0, .tile (tileO st), none⟩
def tensS (st : Bool) : State := tens.updMe fun x => { x with prods := [tensP st] }

/-- The requests' descriptor is in s1. -/
theorem test_witness_TileTransfers :
    tens.readS r1 = .ok (BitVec.ofNat 64 tensD) ∧ tens.readS r2 = .ok 0 ∧ tens.quiet = true ∧ tens.me.claimed = none ∧ tens.migrations = [] ∧
    tens.mycore.setpool = none ∧ TldWhere.ringA ≠ .scratch ∧
    bits (BitVec.ofNat 64 tensD : Word) 23 23 = 0 ∧ bits (BitVec.ofNat 64 tensD : Word) 14 12 = 0 ∧
    bits (0 : Word) 63 60 = 0 ∧ (tileReq tensD 0).rows = 128 ∧ (tileReq tensD 0).cols = 128 ∧ (tileReq tensD 0).dst = 0 ∧
    (tileReq tensD 0).form = false ∧ tensH.kind < 2 := by decide +kernel

theorem test_witness_TileTransfers_entries :
    tens.tileEntries tens.cur tens.me.level (tileReq tensD 0) .scratch false = (tensU .scratch, .ok (tensH, [])) ∧
    (tens.tileEntries tens.cur tens.me.level (tileReq tensD 0) .scratch true).2 = .ok (tensH, []) ∧
    tens.tileEntries tens.cur tens.me.level (tileReq tensD 0) .ringA false = (tensU .ringA, .ok (tensH, [])) ∧
    tens.scratchOk (tileReq tensD 0).dst ((tileReq tensD 0).len tensH false []) 128 = true ∧
    roundUp ((tileReq tensD 0).len tensH true []) 128 ≤ (tensU .ringA).mycore.half ∧
    ((tensU .ringA).mycore.claim (tensU .ringA).j false 32768 0).isSome = true := by decide +kernel

/-- A tst that is its bundle's last slot, and one before it. -/
theorem test_witness_TileTransfers_tst :
    tens.issue.slots = [] ∧ tens.issue.tst = none ∧
    (let s := { tens with issue := { tens.issue with slots := [.nopB] } }
     s.issue.slots ≠ [] ∧ (s.tileEntries s.cur s.me.level (tileReq tensD 0) .scratch true).2 = .ok (tensH, [])) := by
  decide +kernel

theorem test_witness_TileTransfers_claim :
    ((tens.updMe fun x => { x with claimWait := some (false, 32768, 0) }).ctx 0 0).claimWait = some (false, 32768, 0) ∧
    ((tens.core 0).claim 0 false 32768 0).isSome = true ∧ (tens.core 0).atiles.length < 16 ∧ (tens.core 0).btiles = [] ∧
    (((tens.core 0).atiles.map (·.length)).sum + 32768 ≤ (tens.core 0).half) := by decide +kernel

theorem test_witness_TileTransfers_rows :
    (∀ st ∈ [false, true], ((tensS st).ctx 0 0).prods[0]? = some (tensP st) ∧ (tensP st).work = .tile (tileO st) ∧
      (tileO st).err = none ∧ (tileO st).store = st ∧ (tileO st).dest = .scratch) ∧ tensH.kind < 2 ∧
    (let parts := (tileReq 0 0).parts tensH []
     ((tens.countTile 0 0 .r tensH.esz parts).tileRows 0 0 tensH (tileReq 0 0) (List.range (tileReq 0 0).rows)).2.2 = none ∧
     ((tens.countTile 0 0 .w tensH.esz (parts.filter fun p => (tens.checkRow 0 0 tensH.esz p).isOk)).tstRows 0 0 0 tensH
       (tileReq 0 0) (List.range (tileReq 0 0).rows)).2.2 = none) := by decide +kernel

theorem test_witness_TileTransfers_scales :
    (s3 512 0 0).readS r1 = .ok 512 ∧ (s3 512 0 0).scratchOk 512 (8 * ((31 : BitVec 8).toNat + 1)) 8 = true ∧
    (s3 512 0 0).mycore.scales.length + ((s3 512 0 0).mycore.scalesIn.map fun e => e.2.length).sum
      + 4 * ((31 : BitVec 8).toNat + 1) ≤ 1024 ∧
    ((own.updMyCore fun c => { c with scalesIn := [(0, [1, 2])] }).core 0).scalesIn = (0, [1, 2]) :: [] ∧
    dirty.errorFree = true ∧ dirty.holdsWritten 0 4097 = false := by decide +kernel

/-! Producers, engines, barriers, units and tables. -/

def prodS (p : Prod) : State := vm.updMe fun x => { x with prods := [p] }
def loadP (d : Done) : Prod := ⟨5, 0, false, 0, .load none, some d⟩
def amoP (d : Done) : Prod := ⟨5, 0, false, 0, .amo none, some d⟩
/-- A post whose image is not valid, so its status is 2^63 + 2. -/
def badPost : PostOp := ⟨false, [], 0, 0, true, none, 0⟩
def postP : Prod := ⟨5, 0, false, 0, .post badPost, none⟩

theorem test_witness_ProducersComplete :
    (∀ p ∈ [loadP (.value 9), amoP (.value 9), loadP (.fail ⟨0x20, 1, 8, none, false⟩), postP],
      ((prodS p).ctx 0 0).prods[0]? = some p ∧ p.live ((prodS p).ctx 0 0) = true ∧ p.dst ≠ 0) ∧
    (loadP (.value 9)).work = .load none ∧ (loadP (.value 9)).done = some (.value 9) ∧
    (amoP (.value 9)).work = .amo none ∧ (loadP (.fail ⟨0x20, 1, 8, none, false⟩)).done = some (.fail ⟨0x20, 1, 8, none, false⟩) ∧
    postP.work = .post badPost ∧ (prodS postP).postHeld 0 badPost postP.done = false ∧ badPost.bad = true ∧
    (prodS postP).postEnd 0 0 badPost postP.done = (prodS postP, .value (BitVec.ofNat 64 (2 ^ 63 + 2))) ∧
    postP.live ((prodS postP).ctx 0 0) = true := by decide +kernel

/-- vm with copy queue 0 of two slots: its header at 0x50000, WI = wi, its slots at 0x60000. -/
def queued (wi : Nat) : State := { vm with
    mem := (vm.mem.writeN 0x50000 (toBytes 8 wi)).writeN 0x50010 (toBytes 8 0x60000 ++ [1]) }.updVdev 0 fun d =>
  { d with cqtab := [(0, BitVec.ofNat 64 (2 ^ 63 + 0x50000))] }
def post : PostOp := ⟨false, [], 0x50000, 0, false, none, 0⟩

theorem test_witness_EngineCommands_posts :
    badPost.bad = true ∧ post.bad = false ∧ { post with coll := true }.bad = false ∧
    (vm.vdev (vm.vdevOf 0)).hasQueue post.queue = false ∧
    ∀ wi ∈ [0, 2], ((queued wi).vdev ((queued wi).vdevOf 0)).hasQueue post.queue = true ∧
      (queued wi).devRead ((queued wi).vdevOf 0) post.queue 64 (post.level == 0) =
        (((queued wi).devRead 0 post.queue 64 true).1, .ok ((queued wi).mem.readN 0x50000 64)) ∧
      (queued wi).devCheck [] ((queued wi).vdevOf 0) post.queue 64 .w (post.level == 0) = .ok () ∧
      qHdr ((queued wi).mem.readN 0x50000 64) false = some ⟨wi, 0, 0x60000, 1, 0⟩ ∧
      (⟨wi, 0, 0x60000, 1, 0⟩ : QHdr).full = (wi == 2) := by decide +kernel

/-- Of a queue with room the claim gives write index 0 and the slot, of a full one no slot; the image is written. -/
theorem test_witness_EngineCommands_posted :
    ((queued 0).postClaim 0 0 post).2 = .ok (0, some (0x60000, List.replicate 6 0)) ∧
    (((queued 0).postClaim 0 0 post).1.postWrite 0 0 post 0x60000 (List.replicate 6 0)).2 = .ok () ∧
    ((queued 2).postClaim 0 0 post).2 = .ok (2 ^ 63 + 1, none) ∧ (vm.postClaim 0 0 badPost).2 = .ok (2 ^ 63 + 2, none) := by
  and_intros <;> decide +kernel

/-- A header whose LOG2SIZE is 0 is not valid. -/
theorem test_witness_EngineCommands_header :
    let s := { queued 0 with mem := (queued 0).mem.writeN 0x50018 [0] }
    post.bad = false ∧ (s.vdev (s.vdevOf 0)).hasQueue post.queue = true ∧
    (s.devRead (s.vdevOf 0) post.queue 64 (post.level == 0)).2 = .ok (s.mem.readN 0x50000 64) ∧
    s.devCheck [] (s.vdevOf 0) post.queue 64 .w (post.level == 0) = .ok () ∧ qHdr (s.mem.readN 0x50000 64) false = none := by
  decide +kernel

/-- A coll whose image is not valid gets its status as it issues; one to no queue fails. -/
theorem test_witness_EngineCommands_coll :
    vm.migrations = [] ∧ vm.collMoving vm.cur (vm.scrOld 0 64) = false ∧ ((vm.release 0 0).postClaim 0 0 { badPost with coll := true }).2 = .ok (2 ^ 63 + 2, none) ∧
    ((vm.release 0 0).postClaim 0 0 { post with coll := true }).2 = .error (3, 0x50000) ∧
    (((queued 0).release 0 0).postClaim 0 0 { post with coll := true }).2.toOption.map (fun e => e.1) = some 0 := by
  decide +kernel

/-- s1 a handle descriptor of DIM 1, s2 a row-area descriptor of 0. -/
def gath : State := tens.updMe fun x => { x with s := [(1, 0x1000), (2, 0)] }

theorem test_witness_EngineCommands_lanes : gath.readS r1 = .ok 0x1000 ∧ gath.readS r2 = .ok 0 ∧ gath.quiet = true ∧
    gath.scratchOk (0 : Word).toNat 64 64 = true ∧ gath.scratchOk (0x1000 : Word).toNat 64 64 = true ∧ gOk 0x1000 = true ∧
    fld 0 63 53 = 0 ∧ fld 0 52 50 ≤ 4 ∧
    gath.gHandle (gath.vdevOf gath.cur) 0x1000 (gath.me.level == 0) =
      ((gath.gHandle (gath.vdevOf gath.cur) 0x1000 (gath.me.level == 0)).1, .ok tensH) ∧
    gath.localFits (gBar gath.cur 0) 32 16 = true ∧
    gath.scratchOk (fld 0 23 0)
      (max 1 ((activeLanes ((gath.readV w1).map BitVec.toNat)).length * tensH.rs (gBase 0x1000) (gLen 0x1000))) 128 = true := by
  decide +kernel

/-- An operation with lanes 0 (row 1) and 1 (row 200, outside the extents), one element wide. -/
def gop (sc : Bool) : GatherOp := ⟨sc, 0, 0, 0, 0, .ok tensH, 0, 0, 1, 1, [1, 200], 128, 1024, 0, 0, 0, false, 0, [0, 1], []⟩
def gathering (sc : Bool) : State := { tens with gathers := [gop sc] }

/-- Its row's page pinned. -/
def gpinned (sc : Bool) : State := (gathering sc).pin ((gathering sc).holdPages 0
  ((tensH.rowRuns 0 1 1 1).filterMap fun r => r.1.map fun a => (a, r.2 * tensH.esz))).2

theorem test_witness_EngineCommands_rows :
    (∀ sc ∈ [false, true], (gathering sc).gathers[0]? = some (gop sc) ∧ (gathering sc).migrations = [] ∧
      (gop sc).handle = .ok tensH ∧ 0 ∈ (gop sc).todo ∧ 1 ∈ (gop sc).todo ∧ (gop sc).scatter = sc ∧
      tensH.e (gop sc).dim ≤ nth 0 (gop sc).idx 1 ∧ ¬ tensH.e (gop sc).dim ≤ nth 0 (gop sc).idx 0) ∧
    (gop false).base = 0 ∧ (gop false).len = 1 ∧ (gop false).dim = 1 ∧
    ((gpinned false).gatherLane ((gathering false).gEng (gop false)) tensH 0 1 1 1).2.2.2 = none ∧
    ((gpinned false).gatherLane ((gathering false).gEng (gop false)) tensH 0 1 1 1).1.localFits ⟨0, 0, 1024⟩ 128 1 = true ∧
    (∀ m ∈ (gop true).todo, m < 0 → nth 0 (gop true).idx m ≠ 1) ∧
    ((gpinned true).scatterLane ((gathering true).gEng (gop true)) tensH 0 1 1 1
      ((gpinned true).localRead ⟨0, 0, 1024⟩ 128)).2.2 = none := by decide +kernel

/-- An operation whose last lane is served. -/
def gdone (sc : Bool) : GatherOp := { gop sc with todo := [] }

theorem test_witness_EngineCommands_last : ∀ sc ∈ [false, true], { tens with gathers := [gdone sc] }.gathers[0]? = some (gdone sc) ∧
    (gdone sc).handle = .ok tensH ∧ (gdone sc).todo = [] ∧ (gdone sc).scatter = sc := by decide +kernel

/-- s1 names the barrier at byte 16 of the own core, s2 = 0x10003; in far barriers s1 names core 1's. -/
def bars (a : Nat) : State := vm.updMe fun x => { x with s := [(1, BitVec.ofNat 64 a), (2, 0x10003)] }
def barHere : Nat := 2 ^ 61 + 16
def barThere : Nat := 2 ^ 48 + 16
/-- Cluster 1 in virtual device 1. -/
def apart : State := (bars (8 * 2 ^ 48 + 16)).updCluster 1 fun c => { c with device := some 1 }
def msg1 : BarMsg := ⟨0, 0, 0, 16, 1, 0, 0, false, none⟩
def park1 (seen : Nat) : Parked := ⟨⟨4096, 0, 0⟩, 0, 0, 16, seen, 5, false⟩

theorem test_witness_Barriers :
    (bars barHere).readS r1 = .ok (BitVec.ofNat 64 barHere) ∧ (bars barHere).readS r2 = .ok 0x10003 ∧
    (bars barHere).quiet = true ∧ localOf (some 0) barHere = some ⟨0, 0, 16⟩ ∧
    (bars barHere).scratchOk 16 16 16 = true ∧ bits (0x10003 : Word) 63 17 = 0 ∧
    (barrierOf ((bars barHere).localRead ⟨0, 0, 16⟩ 16)).phase ≠ (0x10003 : Word).toNat % 16 ∧
    (barrierOf ((bars barHere).localRead ⟨0, 0, 16⟩ 16)).phase = (0x10000 : Word).toNat % 16 ∧
    (barrierOf ((bars barHere).localRead ⟨0, 0, 16⟩ 16)).park = false ∧
    (barrierOf (((bars barHere).localWrite ⟨0, 0, 16⟩ (Barrier.bytes ⟨3, 1, 0, 1, true, false, false, 0⟩)).localRead ⟨0, 0, 16⟩ 16)).park
      = true := by decide +kernel

theorem test_witness_Barriers_elsewhere :
    localOf (some 0) barThere = some ⟨0, 1, 16⟩ ∧ (⟨0, 1, 16⟩ : Local).loc ≠ 0 ∧
    (bars barThere).readS r1 = .ok (BitVec.ofNat 64 barThere) ∧
    (bars barThere).localVdev ⟨0, 1, 16⟩ = (bars barThere).vdevOf (bars barThere).cur ∧
    (bars barThere).localFits ⟨0, 1, 16⟩ 16 16 = true ∧ localOf (some 0) (8 * 2 ^ 48 + 16) = some ⟨0, 8, 16⟩ ∧
    apart.localVdev ⟨0, 8, 16⟩ ≠ apart.vdevOf apart.cur ∧ apart.localFits ⟨0, 8, 16⟩ 16 16 = true ∧
    localOf (some 0) (8 * 2 ^ 48 + 0x1FFFF0) = some ⟨0, 8, 0x1FFFF0⟩ ∧ apart.localFits ⟨0, 8, 0x1FFFF0⟩ 16 16 = false := by decide +kernel

theorem test_witness_Barriers_updates :
    (let b : Barrier := ⟨3, 2, 100, 2, false, true, false, 0⟩
     b.ovf = true ∧ 1 ≤ b.pendArr ∧ (0 : Int) ≤ b.pendBytes + 0 - 100 ∧ (b.pendBytes + 0 - 100 : Int) < 2 ^ 40 ∧
     b.pendArr < 3 ∧ (b.pendArr ≤ 2 ∧ (min (max 0 (b.pendBytes + 0 - 100 : Int)) (2 ^ 40 - 1)).toNat = 0) ∧
     ¬ b.pendArr ≤ 1 ∧ b.phase < 16 ∧ b.pendArr < 2 ^ 16 ∧ b.pendBytes < 2 ^ 40 ∧ b.expArr < 2 ^ 16 ∧ b.high < 2 ^ 49) ∧
    { vm with barMsgs := [msg1] }.barMsgs = msg1 :: [] ∧
    ((vm.updCluster 0 fun c => { c with parked := [park1 0] }).cluster 0).parked = park1 0 :: [] ∧ (park1 0).applied = false ∧
    (barrierOf (((vm.updCluster 0 fun c => { c with parked := [park1 0] }).drainBar ⟨0, 0, 16⟩).localRead ⟨0, 0, 16⟩ 16)).phase
      = (park1 0).seen ∧
    (barrierOf (((vm.updCluster 0 fun c => { c with parked := [park1 7] }).drainBar ⟨0, 0, 16⟩).localRead ⟨0, 0, 16⟩ 16)).phase
      ≠ (park1 7).seen := by decide +kernel

/-- A launch of one item with one dispenser of 16 identifiers. -/
def lau : Launch :=
  ⟨0, 0, 0x50000, 0x60000, 0, 0, 0, 0x1000, 0, 0x70000, 4, 1, 3, 0, [8], [2], 0, [⟨100, 16, 8, []⟩], 0, [], [], [], false, 0,
    false, false, []⟩
def held1 : Held := ⟨0x70000, 0, 0, 0, 3, 0, 0, 0, 0⟩
/-- Context 0 runs an item of launch 0; its cluster holds identifiers 103 and 101. -/
def running (ids : List Nat) : State := ({ vm with launches := [(0, lau)] }.updCluster 0 fun c =>
  { c with batches := [⟨0, 0, ids, false⟩] }).updMe fun x => { x with held := some held1, s := [(1, 0)] }
/-- s1 = 8, and the plane counter there holds w. -/
def planed (w : Nat) : State := (scr 8 (toBytes 8 w)).updMe fun x => { x with s := [(1, 8)] }

theorem test_witness_PlanesAndIdentifiers :
    (∀ w ∈ [0x43, 0x44, 0x880, 0x280, 0x41], (planed w).readS r1 = .ok 8 ∧ (planed w).scratchOk 8 8 8 = true) ∧
    min (4 : BitVec 4).toNat ((planed 0x44).mycore.plane 8).cap ≤ ((planed 0x44).mycore.plane 8).planes ∧
    ((planed 0x880).mycore.plane 8).err = true ∧ ((planed 0x280).mycore.plane 8).cancelled = true ∧
    ¬ (min (4 : BitVec 4).toNat ((planed 0x43).mycore.plane 8).cap ≤ ((planed 0x43).mycore.plane 8).planes ∨
      ((planed 0x43).mycore.plane 8).err = true ∨ ((planed 0x43).mycore.plane 8).cancelled = true) ∧
    ((planed 0x44).mycore.plane 8).cap = ((planed 0x44).mycore.plane 8).planes ∧
    ((planed 0x43).mycore.plane 8).err = false ∧ ((planed 0x43).mycore.plane 8).cancelled = false ∧
    ((planed 0x43).mycore.plane 8).cap ≠ ((planed 0x43).mycore.plane 8).planes ∧
    (planed 0x43).counterOf (planed 0x43).cur 8 = none := by decide +kernel

theorem test_witness_PlanesAndIdentifiers_next :
    (running [103, 101]).readS r1 = .ok 0 ∧ (running [103, 101]).me.held = some held1 ∧
    (running [103, 101]).launch held1.launch = some lau ∧ (0 : Nat) < 16 ∧ 0 < lau.disps.length ∧
    (let e := ((running [103, 101]).cluster (clusterOf 0)).batch 0 0
     101 ∈ e.ids ∧ ∀ m ∈ e.ids, 101 ≤ m) ∧
    (((running []).cluster (clusterOf 0)).batch 0 0).ids = [] := by decide +kernel

/-- Result port 0x30 in each of its states; a CBU or RCU operation running. -/
def ported (r : PortRes) : State := vm.updMe fun x => { x with units := { x.units with res := [(0x30, r)] } }
def unitS (port : Nat) (ports : Tbl Word) : State :=
  let s := vm.updMe fun x => { x with
    units := { x.units with ports := ports, dedup := some [0], dedupN := 1, pops := [8], pairs := 1 } }
  s.updMyCore fun c => { c with unitOps := [((trigUnit port).getD 0, some (s.triggered port))], clock := 1000 }
/-- The operation fails its checks, or its work f gives the results of its ports. -/
def opIs (port : Nat) (ports : Tbl Word) (f : State → UnitOp → State × List Nat) (ok : Bool) : Bool :=
  match ((unitS port ports).core 0).opOf 0 port with
  | none => false
  | some p => !((unitS port ports).core 0).unitWaits p && decide (p.last < ((unitS port ports).core 0).clock) &&
    (match p.check ((unitS port ports).core 0).spsz with
     | .ok _ => p.code == none && p.last == p.cycles
     | .error c => p.code == some c && p.last == 1) &&
    p.code.isNone == ok && (!ok || (f (unitS port ports) p).2.length == (trigResults port).length)

theorem test_witness_PortUnits :
    vm.readS r1 = .ok 4096 ∧ trigUnit (0x0B : BitVec 8).toNat = none ∧ trigUnit (0x20 : BitVec 8).toNat = some 0 ∧
    vm.mycore.unitRuns 0 = none ∧ ((unitS 0x20 []).mycore.unitRuns 0).isSome = true ∧
    (∀ r ∈ [.never, .value 7, .failed 0x20, .empty], (ported r).me.units.res.get .never 0x30 = r) ∧ (4 : BitVec 6) ≠ 0 ∧
    (∀ k ∈ [3, 1, 0], k < 2 ^ 2) ∧ 2 < 5 ∧ ((vm.core 0).clock ≤ 0 + 8) := by decide +kernel

/-- A trigger of a free unit, whose operation passes its checks or not; one whose cycles are not over. -/
theorem test_witness_PortUnits_start :
    vm.mycore.setpool = none ∧ (vm.triggered 0x20).check vm.mycore.spsz = .ok () ∧ (vm.triggered 0x20).trig = 0x20 ∧
    (let s := vm.updMe fun x => { x with units := { x.units with ports := [(0, 16)] } }
     s.mycore.unitRuns 0 = none ∧ (s.triggered 0x20).check s.mycore.spsz = .error 0) ∧
    (let c := { (unitS 0x20 []).core 0 with clock := 5 }
     (c.opOf 0 0x20).any (fun p => !c.unitWaits p && decide (c.clock ≤ p.last)) = true) := by decide +kernel

/-- Every operation fails on an operand out of its limits. -/
theorem test_witness_PortUnits_fails :
    opIs 0x20 [(0, 16)] (fun s => s.dedup 0 0) false = true ∧ opIs 0x21 [] (fun s => s.remap 0 0) false = true ∧
    opIs 0x22 [] (fun s => s.pair 0 0) false = true ∧ opIs 0x23 [] (fun s => s.expand 0 0) false = true ∧
    opIs 0x50 [(0x42, 3)] (fun s => s.recluster 0 0) false = true ∧ opIs 0x90 [] (fun s => s.buildTable 0) false = true := by
  decide +kernel

/-- Each operation ends with results, after 1,000 cycles more than its own. -/
theorem test_witness_PortUnits_ends :
    opIs 0x20 [] (fun s => s.dedup 0 0) true = true ∧
    opIs 0x21 [(3, 0), (5, 128), (6, 8), (7, 1)] (fun s => s.remap 0 0) true = true ∧
    opIs 0x22 [(3, 0), (4, 128), (5, 256), (6, 8), (7, 1), (8, 1), (0x0A, 512)] (fun s => s.pair 0 0) true = true ∧
    opIs 0x23 [(5, 1024), (6, 8), (7, 1)] (fun s => s.expand 0 0) true = true ∧
    opIs 0x50 [] (fun s => s.recluster 0 0) true = true ∧
    opIs 0x90 [(0x81, 8), (0x82, 1)] (fun s => s.buildTable 0) true = true := by decide +kernel

/-- A codebook image of one FP32 entry at scratchpad byte 0; lengths 1 and 1 at byte 1024; a beat word at 2048. -/
def tabs (a : Nat) : State := ((((scr 0 [1]).updMyCore fun c => c.setScr 1024 [0x11]).updMyCore fun c =>
  (c.setScr 2048 (toBytes 4 0x20800000)).setScr 2052 (toBytes 4 0x30000000)).updMe fun x =>
    { x with s := [(1, BitVec.ofNat 64 a)] })
def lddtP (st : Nat) : Prod := ⟨5, 0, false, 0, .lddt 1 0x11 st, none⟩
def lddtS (st : Nat) : State := vm.updMe fun x => { x with prods := [lddtP st] }

theorem test_witness_TablesOfACore :
    (tabs 0).readS r1 = .ok 0 ∧ (tabs 0).scratchOk 0 144 16 = true ∧ (tabs 0).mycore.cbBusy (tabs 0).j 3 = false ∧
    cbImageOk ((tabs 0).scrOld 0 144) = true ∧ cbImageOk ((tabs 0).scrOld 512 144) = false ∧
    (tabs 512).readS r1 = .ok 512 ∧ (tabs 512).scratchOk 512 144 16 = true ∧ (tabs 1024).readS r1 = .ok 1024 ∧
    (tabs 1024).scratchOk 1024 8 8 = true ∧ (4 : Nat) % 8 ≠ 0 ∧ (tabs 4).readS r1 = .ok 4 ∧
    (tabs 2048).readS r1 = .ok 2048 ∧ (tabs 2048).scratchOk 2048 (4 * (1 + 1)) 4 = true ∧
    beatOk (ofBytes ((tabs 2048).scrOld 2048 4)) = true ∧ beatOk (ofBytes ((tabs 2048).scrOld 2052 4)) = false := by
  decide +kernel

theorem test_witness_TablesOfACore_lddt :
    ∀ st ∈ [0, 1], ((lddtS st).ctx 0 0).prods[0]? = some (lddtP st) ∧ (lddtP st).live ((lddtS st).ctx 0 0) = true ∧
    (lddtP st).work = .lddt 1 0x11 st ∧
    (let y := ((lddtS st).ctx 0 0).dt.get DTable.reset 1
     (if y.newer = some false then y.b1 else y.b0).valid = false) := by decide +kernel

/-! Control, traps, interrupts and the system instructions. -/

def ctxS (f : Ctx → Ctx) : State := vm.updMe f

/-- b2 = 0x2000 with its fetch started, b7 = 0x3000, p2 set. -/
def brS : State := ctxS fun x => { x with b := [(2, 0x2000), (7, 0x3000)], p := 5, prep := [(2, 0)] }
def takes (s : State) (q : BitVec 3) (g : Bool) : Bool := (if q = 0 then true else s.rd.p / 2 ^ q.toNat % 2 == 1) != g

theorem test_witness_Branches_pbr : vm.readS r1 = .ok 4096 ∧
    ∃ t, exec (.pbr 2 r1) vm = .next t ∧ t.me.flights.map (fun f => (f.dest, f.val)) = [(.b 2, 4096)] :=
  ⟨by decide +kernel, next_and (by decide +kernel) (by decide +kernel)⟩
theorem test_witness_Branches_pbri : ∃ t, exec (.pbri 2 (-1)) { vm with issue := { vm.issue with addr := 0x1000 } } = .next t ∧
    t.me.flights.map (fun f => (f.dest, f.val)) = [(.b 2, 0xFFC)] := next_and (by decide +kernel) (by decide +kernel)
theorem test_witness_Branches_br : takes brS 2 false = true ∧ takes brS 2 true = false ∧ takes brS 0 false = true ∧
    takes brS 1 false = false ∧ ∃ t, exec (.br 2 2 false) brS = .next t ∧ t.me.pc = 0x2000 ∧ t.mycore.clock = 3 := by
  and_intros <;> first | decide +kernel | exact next_and (by decide +kernel) (by decide +kernel)
theorem test_witness_Branches_call : takes brS 1 true = true ∧ takes brS 1 false = false ∧
    ∃ t, exec (.call 2 1 true) brS = .next t ∧ t.me.pc = 0x2000 ∧ t.me.prep.get 9 7 = 0 := by
  and_intros <;> first | decide +kernel | exact next_and (by decide +kernel) (by decide +kernel)
theorem test_witness_Branches_ret : takes brS 0 false = true ∧ takes brS 0 true = false ∧
    ∃ t, exec (.ret 0 false) brS = .next t ∧ t.me.pc = 0x3000 := by
  and_intros <;> first | decide +kernel | exact next_and (by decide +kernel) (by decide +kernel)

theorem test_witness_BoundaryEffects :
    vm.issue.slots = [] ∧ vm.issue.ctl = .none ∧ vm.mycore.unitBusy vm.j = false ∧
    (ctxS fun x => { x with level := 1, depth := 1 }).rd.level = 1 ∧
    (ctxS fun x => { x with level := 1, depth := 1 }).mycore.returnBusy 0 = false ∧
    (ctxS fun x => { x with uih := true }).me.uih = true ∧ (ctxS fun x => { x with uih := true }).mycore.returnBusy 0 = false ∧
    vm.me.preq = false ∧ (ctxS fun x => { x with preq := true }).me.preq = true ∧
    (ctxS fun x => { x with preq := true, flights := two }).mycore.settled 0 = false ∧
    (ctxS fun x => { x with preq := true }).mycore.settled 0 = true ∧
    (ctxS fun x => { x with preq := true }).mycore.busy 0 = false ∧ vm.quiet = true ∧
    (∀ c, c < 64 → vm.me.feS c ≠ .faulted) ∧ vm.rd.level = 0 ∧ (ctxS fun x => { x with level := 1 }).me.depth = 0 ∧
    vm.rd.storeFault = none ∧ vm.me.uih = false ∧ (ctxS fun x => { x with level := 1 }).rd.storeFault = none := by
  decide +kernel

theorem test_witness_BoundaryEffects_waits :
    vm.issue.tst = none ∧ vm.rd.prods = [] ∧ (tensS false).rd.prods ≠ [] ∧ (tensS false).rd.storeFault = none ∧
    feState.rd.prods = [] ∧ (ctxS fun x => { x with flights := two }).rd.prods = [] ∧
    (ctxS fun x => { x with uih := true, level := 1 }).me.level ≠ 0 := by decide +kernel

/-- A bundle that marks and traps, and one whose item has been killed. -/
theorem test_witness_BoundaryEffects_marked :
    (let s := { ctxS fun x => { x with preq := true } with issue := { vm.issue with mark := true } }
     s.issue.slots = [] ∧ s.issue.ctl = .none ∧ s.issue.tst = none ∧ s.me.killed = false ∧ s.issue.mark = true ∧ s.me.preq = true ∧
     s.me.level = 0 ∧ s.me.uih = false ∧ s.mycore.unitBusy s.j = false) ∧
    (let s := ctxS fun x => { x with killed := true }
     s.issue.slots = [] ∧ s.issue.ctl = .none ∧ s.issue.tst = none ∧ s.issue.mark = false ∧ s.me.killed = true ∧ s.quiet = true ∧
     s.mycore.settled s.j = true ∧ s.me.level = 0 ∧ s.me.uih = false) ∧
    vm.issue.mark = false ∧ vm.me.killed = false := by decide +kernel

/-- R84, R321: the mark of a bundle that traps is counted as refused. -/
theorem test_mark_with_trap_is_refused :
    ((stateOf (exec (.trap 5) { ctxS fun x => { x with preq := true } with issue := { vm.issue with mark := true } })).ctx 0
      0).counters.get 0 0x10A = 1 := by decide +kernel

/-- A tld that will fail, and a state that waits for one that will not. -/
def failP : Prod := { tensP false with work := .tile { tileO false with err := some (1, far) } }

theorem test_witness_BoundaryEffects_end :
    (let s := prodS failP
     s.rd.storeFault = none ∧ s.me.faultAtEnd.isNone = true ∧ failP ∈ s.rd.prods ∧ failP.dst ≠ 0 ∧ failP.target = 0 ∧
     s.mayFail s.cur s.j failP = true) ∧
    (let s := tensS false
     s.rd.storeFault = none ∧ s.me.faultAtEnd.isNone = true ∧ s.rd.prods = [tensP false] ∧
     s.mayFail s.cur s.j (tensP false) = false ∧ s.issue.mark = false ∧ s.mycore.settled s.j = true ∧ s.issue.slots = [] ∧
     s.issue.ctl = .none ∧ s.issue.tst = none ∧ s.mycore.busy s.j = true) := by decide +kernel

theorem test_witness_BoundaryEffects_first :
    (let first := fun (s : State) => s.me.timer || s.me.notice || s.timerWithin s.cur s.j s.bundleCycles
     first (ctxS fun x => { x with preq := true }) = false ∧ first (ctxS fun x => { x with preq := true, notice := true }) = true ∧
     first ((ctxS fun x => { x with preq := true }).updCluster 0 fun c => { c with timers := [(0, BitVec.ofNat 64 (2 ^ 63 + 1))] })
      = true) ∧
    (ctxS fun x => { x with preq := true }).recordMoving 0 0 = false ∧
    (ctxS fun x => { x with level := 1 }).mycore.settled 0 = true ∧ (ctxS fun x => { x with level := 1 }).mycore.busy 0 = false ∧
    (∀ c, c < 64 → (ctxS fun x => { x with level := 1 }).me.feS c ≠ .faulted) ∧
    (∀ c, c < 64 → ({ (ctxS fun x => { x with level := 1 }).me with uih := false } : Ctx).feS c ≠ .faulted) ∧ feState.me.anyFaulted ≠ none ∧
    feState.rd.storeFault = none ∧ (ctxS fun x => { x with flights := two }).mycore.settled 0 = false ∧
    (ctxS fun x => { x with flights := two }).me.faultAtEnd.isNone = true := by decide +kernel

/-- R85, R204: in a user-level handler the original of s60 is empty-faulted, its copy is not. -/
def hiddenS : State := ctxS fun x => { x with uih := true, fe := x.fe.set 60 .faulted }

theorem test_witness_BoundaryEffects_hidden : hiddenS.rd.storeFault = none ∧ hiddenS.me.anyFaulted = none ∧
    ({ hiddenS.me with uih := false } : Ctx).anyFaulted = some 60 := by decide +kernel

/-- A handler at 0x4000. -/
def handled : State := vm.updMyCore fun c => { c with tvec := 0x4000 }

theorem test_witness_TrapEntry :
    frameAt 0 0 + 0x800 ≤ (handled.core 0).b0 * 8192 ∧ (handled.core 0).tvec.toNat / 256 ≠ 0 ∧
    (⟨0x30, 0x42, 0, none, none, false⟩ : Raise).cause ≠ 0x20 ∧ (⟨0x30, 0x42, 0, none, none, false⟩ : Raise).cause ≠ 0x21 ∧
    (⟨0x30, 0x42, 0, none, none, false⟩ : Raise).cause < 256 ∧ (⟨0x30, 0x42, 0, none, none, false⟩ : Raise).code < 65536 ∧
    0x1010 < 2 ^ 64 ∧ (handled.ctx 0 0).depth = 0 := by decide +kernel

theorem test_witness_TrapThenReturn :
    let s := handled.updMe fun x => { x with flights := [⟨.x0, .s 4, 5, [], 2, 0, false, 0, 0, false, .none⟩,
      ⟨.btarget, .b 7, 8, [], 1, 0, false, 0, 0, false, .none⟩], prods := [loadP (.value 9)] }
    let x := s.ctx 0 0
    x.level = 0 ∧ x.uih = false ∧ x.depth = 0 ∧ (s.core 0).saved = [] ∧ x.p < 256 ∧ x.p % 2 = 1 ∧ x.x0.length ≤ 4 ∧
    x.x1.length ≤ 4 ∧ (∀ p ∈ x.prods, p.target = 0) ∧ (x.flights.filter fun f => f.unit.sWide).length ≤ 48 ∧
    ∀ f ∈ x.flights, f.home = 0 ∧ (f.unit.sWide = true →
      f.shadow = false ∧ f.beat = .none ∧ f.wide = [] ∧ f.rem < 256 ∧ f.slot < 256 ∧
      (f.unit = .btarget → f.dest = .b 7) ∧ (f.unit ≠ .btarget → f.dest = .s 4)) := by
  decide +kernel

theorem test_witness_Interrupts :
    let s := ctxS fun x => { x with held := some held1, timer := true, upend := 1, uivec := 0x5001 }
    let x := s.ctx 0 0
    (s.core 0).unitBusy 0 = false ∧ (s.core 0).midPlay 0 = false ∧ x.held.isSome = true ∧ x.pend = .none ∧ x.killed = false ∧
    x.uih = false ∧ ((ctxS fun x => { x with killed := true }).ctx 0 0).killed = true ∧ x.level = 0 ∧ x.timer = true ∧ ((ctxS fun x => { x with notice := true }).ctx 0 0).timer = false ∧
    ((ctxS fun x => { x with notice := true }).ctx 0 0).notice = true ∧ x.upend ≠ 0 ∧ bit x.uivec 0 = true ∧ x.depth = 0 ∧
    (let y := (ctxS fun x => { x with held := some held1, upend := 1, uivec := 0x5001 }).ctx 0 0
     y.timer = false ∧ y.notice = false ∧ y.upend ≠ 0 ∧ y.held.isSome = true) ∧ (s.core 0).cur = 0 ∧
    (((ctxS fun x => { x with upend := 1 }).updCore 0 fun c => { c with cur := 2 }).core 0).cur ≠ 0 ∧
    0x1010 < 2 ^ 64 ∧ x.x0.length ≤ 4 ∧ x.x1.length ≤ 4 := by decide +kernel

/-- Log 44: a supervisor trap nests on a user-level handler and writes s60; the return gives the handler's s60 back. -/
theorem test_shadow_kept :
    (let s := (handled.updMyCore fun c => { c with b0 := 40 }).updMe fun x => { x with uih := true, depth := 1, sh := [(60, 5)] }
     let t := (s.takeTrap 0 0 ⟨0x30, 5, 0, none, none, false⟩ 0x1010).updCtx 0 0 fun x => x.putS true 60 9 .full
     ((t.retiNow 0 0 []).ctx 0 0).regS 60) = 5 := by decide +kernel

theorem test_witness_ControlRegisters :
    vm.readS r1 = .ok 4096 ∧ vm.rd.level ≠ 1 ∧ (0x041 : BitVec 12).toNat ∈ [0x014, 0x028, 0x029, 0x040, 0x041] ∧
    (ctxS fun x => { x with level := 1 }).rd.level = 1 ∧ (ctxS fun x => { x with level := 1 }).readS r1 = .ok 4096 ∧
    (5 : Nat) < 0x100 ∧ (5 : Nat) ≠ (0x041 : BitVec 12).toNat ∧ 0x100 ≤ (0x120 : BitVec 12).toNat ∧
    vm.issue.before = none := by decide

/-- s1 a setpool operand; one conversion under way. -/
def pools (b0 b1 b2 : Nat) : State := vm.updMe fun x => { x with s := [(1, BitVec.ofNat 64 (b0 + 2 ^ 8 * b1 + 2 ^ 16 * b2))] }
def converting : State := vm.updMyCore fun c => { c with setpool := some ⟨0, 40, 128, 184⟩ }

/-- A handler of depth 1 runs on core 0, whose array belongs to `owner`, saved as `saved` says. -/
def arrS (owner : Option Nat) (saved : List ArrSaved) : State :=
  (vm.updMyCore fun c => { c with owner := owner, saved := saved }).updMe fun x => { x with level := 1, depth := 1 }
def arrZ (owner : Option Nat) (depth : Nat) : ArrSaved := ⟨0, depth, 0, owner, [], 0, []⟩

theorem test_witness_ArrayAndPool_arrsave :
    (∀ o ∈ [none, some 0], (arrS o []).rd.level = 1 ∧ (arrS o []).mycore.handlerOwns (arrS o []).j = false ∧
      (arrS o []).mycore.owner = o ∧ isNext (exec .arrsave (arrS o [])) = true) ∧
    (arrS (some 0) [arrZ none 1]).mycore.handlerOwns 0 = true ∧
    isNext (exec .arrsave (arrS (some 0) [arrZ none 1])) = true := by decide +kernel

theorem test_witness_ArrayAndPool_arrrest :
    (∀ o ∈ [none, some 0], (arrS (some 0) [arrZ o 1]).mycore.saved = arrZ o 1 :: [] ∧ (arrZ o 1).by_ = 0 ∧
      (arrZ o 1).depth = (arrS (some 0) [arrZ o 1]).me.depth ∧ (arrZ o 1).owner = o ∧
      isNext (exec .arrrest (arrS (some 0) [arrZ o 1])) = true) ∧
    (arrS none []).mycore.saved = [] ∧ (arrZ none 2).depth ≠ (arrS none [arrZ none 2]).me.depth ∧
    isNext (exec .arrrest (arrS none [])) = true := by decide +kernel

theorem test_witness_ArrayAndPool :
    (∀ b, ∀ q ∈ List.range 128, (((arrS (some 0) []).mycore.acc b).get zeroRow q).length = 128) ∧
    (pools 32 100 184).readS r1 = .ok (BitVec.ofNat 64 (32 + 2 ^ 8 * 100 + 2 ^ 16 * 184)) ∧
    (converting.core 0).setpool = some ⟨0, 40, 128, 184⟩ ∧ converting.engineWrites 0 = false ∧
    ∀ q ∈ (converting.ctx 0 0).prods, q.target = 0 := by
  refine ⟨?_, by decide +kernel, rfl, by decide +kernel, by decide +kernel⟩
  intro b q _
  cases b <;> rfl

/-- A save with the array owned, and a conversion that takes no unit from the scratchpad while an engine writes there. -/
theorem test_witness_ArrayAndPool_more :
    (arrS (some 0) []).rd.level = 1 ∧ (arrS (some 0) []).mycore.handlerOwns (arrS (some 0) []).j = false ∧
    (arrS (some 0) []).mycore.owner = some 0 ∧
    (let p : Setpool := ⟨0, 32, 150, 184⟩
     p.b0 = (vm.core 0).b0 ∧ ∀ k, k < 192 → regionOf (vm.core 0).b0 (vm.core 0).b1 (vm.core 0).b2 k = 1 →
       regionOf p.b0 p.b1 p.b2 k = 1) := by decide +kernel

theorem test_witness_TranslationsAndCaches :
    vm.readS r1 = .ok 4096 ∧ (ctxS fun x => { x with level := 1 }).rd.level = 1 ∧
    (ctxS fun x => { x with level := 1 }).readS r1 = .ok 4096 ∧
    dirty.errorFree = true ∧ dirty.holdsWritten 0 4097 = false ∧ bit dirty.mycore.lwbase 0 = false ∧
    dirty.lookup (dirty.tlbs dirty.cur) (dirty.vdevOf dirty.cur) 4096 = some ⟨4096, 0x3F, 2 ^ 30, 0x20000⟩ ∧
    4096 / 512 = (⟨4096, 0x3F, 2 ^ 30, 0x20000⟩ : Trans).pa / 512 ∧
    vm.lookup (vm.tlbs vm.cur) (vm.vdevOf vm.cur) far = none ∧ CacheKind.page ≠ .l1 ∧
    (ctxS fun x => { x with ev := true }).me.ev = true ∧ vm.me.ev = false ∧ dirty.outsideWindow 4096 1 = true ∧
    lw.outsideWindow 0x1000000 1 = false ∧ lw.outsideWindow 0x1400000 1 = true ∧ vm.errorFree = true := by decide +kernel

/-! Events. -/

/-- A context 1 of core 0 that could issue, beside context 0 with a record. -/
def twoCtx (run : Nat) (st : Option Stall) : State :=
  ((running []).updCtx 0 1 fun x => { x with held := some { held1 with addr := 0x70040 } }).updCore 0 fun c =>
    ({ c with run := run }).setCtx 0 { c.ctx 0 with stall := st }
def evS : State := (State.reset.withFetchWord 32 0x00428610)

/-- Context 0 at 0x1000, whose page the micro-TLB holds, with words there. -/
def fetTl : TlbEntry := ⟨0, 0, 2 ^ 30, 0x3F⟩
def fetS (ws : List Nat) : State := ({ vm with mem := vm.mem.writeN 0x1000 (ws.flatMap (toBytes 4)) }.updMyCore fun c =>
  { c with utlb := [fetTl] }).updMe fun x => { x with held := some held1, pc := 0x1000 }
def fetW : List Nat := [0x00428610, 0x10000000, 0x20000000, 0xD0000000]
def badW : List Nat := [0, 0x10000000, 0x70000000, 0xD0000000]

theorem test_witness_CoreEvents_bundleFetch :
    ∀ ws ∈ [fetW, badW], let s := fetS ws
      let c := s.core 0
      let y := c.ctx c.cur
      y.held.isSome = true ∧ y.pc % 4 = 0 ∧ bit c.lwbase 0 = false ∧ s.migrations = [] ∧ s.poison = [] ∧ s.upset = [] ∧
      s.removed = [] ∧ y.pc + 32 ≤ 2 ^ 52 ∧ bit (s.vdev (s.vdevOf 0)).ptbase 0 = true ∧
      (∀ k, k < 32 → tlbFind c.utlb (s.vdevOf 0) (y.pc + k) = some fetTl) ∧ fetTl.va ≤ y.pc ∧
      denied fetTl.pte.toNat .x (y.level == 0) = false ∧ 1 ≤ ws.length ∧ ws.length ≤ 8 ∧
      (∀ a, a < ws.length → s.mem.num (0x1000 + 4 * a) 4 = nth 0 ws a) ∧
      (∀ a, a < 3 → nth 0 ws a < 2 ^ 31) ∧ 2 ^ 31 ≤ nth 0 ws (ws.length - 1) ∧
      (checkBundle ws (c.play.any fun p => p.ctx == c.cur)).isOk = (ws == fetW) ∧ isNext (exec (.bundleFetch 0) s) = true := by
  decide +kernel

theorem test_witness_CoreEvents_bundleFetch_words :
    let p := { evS with cur := 0 }
    p.me.held.isSome = true ∧ p.me.pc % 4 = 0 ∧
    { p with issue := { Issue.none with addr := p.me.pc } }.fetchWords 0 (p.me.level == 0) 8 p.me.pc = (bunF, .ok bunW) ∧
    checkBundle bunW (p.mycore.play.any fun q => q.ctx == p.mycore.cur) = .ok bunI ∧
    checkBundle badW (p.mycore.play.any fun q => q.ctx == p.mycore.cur) = .error (2, 3) ∧ vm.me.held.isSome = false := by
  decide +kernel

/-- A B tile whose segment 0 is 34 bytes: its marker, and 256 one-bit codes of symbol 0; bank 0 of table 0 gives symbols
0 and 1 one bit each. -/
def decS (lens : Tbl DTable) : State := (own.updMe fun x => { x with mctl := 0x0000008880000060, dt := lens }).updMyCore fun c =>
  { c.setRing true 0 ([0, 0, 34, 0] ++ List.replicate 124 0 ++ [0xA5, 0]) with btiles := [tileA] }
def decT : Tbl DTable := [(0, ⟨⟨true, 0, 0x11, 64⟩, ⟨false, 0, 0, 0⟩, 1⟩)]

theorem test_witness_CoreEvents_decoderSegmentDecode :
    ∀ r ∈ [decT, []], (let s := decS r
      let c := s.core 0
      let x := s.ctx 0 0
      c.decodes = some 0 ∧ c.nextSeg = some (0, tileA) ∧ bit x.mctl 31 = true ∧ c.malformed = none ∧ c.fifoSegs < 4 ∧
      segment (c.segBytes tileA 0) 0 (c.tileGen tileA) ((x.dt.get DTable.reset (bits x.mctl 42 40)).lensOf (c.tileGen tileA))
        (0 % 64 != 63 || tileA.coded != 0) = if r == [] then .error (2, 8) else .ok (List.replicate 256 0)) ∧
    (vm.core 0).decodes = none ∧ isNext (exec (.decoderSegmentDecode 0) (decS r)) = true := by
  decide +kernel

/-- The landing of a 6 in s1 is due. -/
def landF : Flight := ⟨.x0, .s 1, 6, [], 0, 0, false, 0, 0, false, .none⟩
def landS : State := ctxS fun x => { x with flights := [landF, { landF with rem := 1 }] }

theorem test_witness_CoreEvents_fixedLatencyLanding :
    (let x := landS.ctx 0 0
     x.flights.filter (fun f => f.home == x.depth && f.rem == 0) = [landF] ∧ landF.dest = .s 1 ∧ landF.shadow = x.shadowed 1) ∧
    (let x := vm.ctx 0 0
     x.flights.filter (fun f => f.home == x.depth && f.rem == 0) = []) ∧
    ∃ t, exec (.fixedLatencyLanding 0 0) landS = .next t ∧ (t.ctx 0 0).regS 1 = 6 ∧ (t.ctx 0 0).flights.length = 1 := by
  and_intros <;> first | decide +kernel | exact next_and (by decide +kernel) (by decide +kernel)

theorem test_witness_CoreEvents_switchOnStall :
    ((twoCtx 5 (some .fe)).core 0).cur = 0 ∧ (((twoCtx 5 (some .fe)).core 0).ctx ((0 + 1) % 4)).ready = true ∧
    (∀ d ∈ List.range 1, 1 ≤ d → (((twoCtx 5 (some .fe)).core 0).ctx ((0 + d) % 4)).ready = false) ∧
    (((twoCtx 5 (some .fe)).core 0).ctx 0).ready = false ∧ (((twoCtx 5 none).core 0).ctx 0).ready = true ∧
    (∀ d ∈ [1, 2, 3], ((vm.core 0).ctx (((vm.core 0).cur + d) % 4)).ready = false) ∧
    ∃ t, exec (.switchOnStall 0) (twoCtx 5 (some .fe)) = .next t ∧ (t.core 0).cur = 1 := by
  and_intros <;> first | decide +kernel | exact next_and (by decide +kernel) (by decide +kernel)

theorem test_witness_CoreEvents_switchQuantumExpiry :
    1024 ≤ ((twoCtx 1024 none).core 0).run ∧ (((twoCtx 1024 none).core 0).ctx ((0 + 1) % 4)).ready = true ∧
    ((twoCtx 5 none).core 0).run < 1024 ∧
    ∃ t, exec (.switchQuantumExpiry 0) (twoCtx 1024 none) = .next t ∧ (t.core 0).cur = 1 ∧ (t.core 0).run = 0 := by
  and_intros <;> first | decide +kernel | exact next_and (by decide +kernel) (by decide +kernel)

/-- Every context of cluster 0 runs an item of priority 3; a record of priority p waits. -/
def full (asked : Bool) (p : Nat) : State := { State.reset with
  cores := tab 8 fun n => (n, { Core.reset with ctxs := tab 4 fun j => (j, { Ctx.reset with held := some held1, asked := asked }) }),
  clusters := [(0, { Cluster.reset with lists := [(p, [⟨0x70000, 0, 0⟩])] })] }

theorem test_witness_CoreEvents_preemptionRequest :
    (∃ d ∈ clusterCtxs 0, ((full true 5).ctx d.1 d.2).asked = true) ∧
    (∀ d ∈ clusterCtxs 0, ((full false 5).ctx d.1 d.2).asked = false) ∧
    ((full false 5).cluster 0).lists.get [] 5 = ⟨0x70000, 0, 0⟩ :: [] ∧
    (∀ a ∈ [6, 7], ((full false 5).cluster 0).lists.get [] a = []) ∧ (0, 0) ∈ clusterCtxs 0 ∧
    (full false 5).permits ((full false 5).cluster 0).vdev 0 ⟨0x70000, 0, 0⟩ = true ∧
    ((full false 5).ctx 0 0).held = some held1 ∧ held1.prio < 5 ∧
    (∀ d ∈ clusterCtxs 0, ((full false 5).ctx d.1 d.2).held = some held1 ∧ (0 < d.1 ∨ (0 = d.1 ∧ 0 ≤ d.2))) ∧
    ∃ t, exec (.preemptionRequest 0) (full false 5) = .next t ∧ (t.ctx 0 0).asked = true ∧ (t.ctx 0 0).preq = true := by
  and_intros <;> first | decide +kernel | exact next_and (by decide +kernel) (by decide +kernel)

theorem test_witness_CoreEvents_cpreqWrite : (0 : Nat) < 64 ∧ (running []).recovery = false ∧
    ∃ t, exec (.cpreqWrite 0 3) (running []) = .next t ∧ (t.ctx 0 0).preq = true ∧ (t.ctx 0 1).preq = false := by
  and_intros <;> first | decide +kernel | exact next_and (by decide +kernel) (by decide +kernel)

theorem test_witness_CoreEvents_noticeWrite : (0 : Nat) < 64 ∧ vm.recovery = false ∧
    ∃ t, exec (.noticeWrite 0 2) vm = .next t ∧ (t.ctx 0 1).notice = true ∧ (t.ctx 0 0).notice = false := by
  and_intros <;> first | decide +kernel | exact next_and (by decide +kernel) (by decide +kernel)

theorem test_witness_CoreEvents_timerExpiry :
    (let due := fun (s : State) => bit ((s.cluster 0).timers.get 0 1) 63 = true ∧
       ((s.cluster 0).timers.get 0 1).toNat % 2 ^ 63 ≤ ((s.core (8 * 0 + 1 / 4)).counters.get 0 0x120).toNat
     due (vm.updCluster 0 fun c => { c with timers := [(1, BitVec.ofNat 64 (2 ^ 63))] }) ∧ ¬ due vm) ∧
    ∃ t, exec (.timerExpiry 0 1) (vm.updCluster 0 fun c => { c with timers := [(1, BitVec.ofNat 64 (2 ^ 63))] }) = .next t ∧
      (t.ctx 0 1).timer = true := ⟨by decide +kernel, next_and (by decide +kernel) (by decide +kernel)⟩

/-- A request for context 0's pre-emption t ticks old; `prod` says that a producer is outstanding. -/
def heavy (t : Nat) (prod : Bool) : State := vm.updMe fun x =>
  { x with held := some held1, preq := true, preqTicks := t, prods := if prod then [tensP false] else [] }

theorem test_witness_CoreEvents_heavyPreemption :
    (∀ p ∈ [false, true], let x := (heavy 5000 p).ctx 0 0
     x.held.isSome = true ∧ x.pend = .none ∧ x.killed = false ∧ x.preq = true ∧ x.level = 0 ∧ x.uih = false ∧
      ((heavy 5000 p).core 0).pbound ≤ x.preqTicks ∧ ((heavy 5000 p).core 0).midPlay 0 = false ∧
      ((heavy 5000 p).core 0).busy 0 = p ∧ (heavy 5000 p).recordMoving 0 0 = false) ∧
    ((heavy 5 false).ctx 0 0).preqTicks < ((heavy 5 false).core 0).pbound ∧
    ∃ t, exec (.heavyPreemption 0 0) (heavy 5000 false) = .next t := by
  and_intros <;> first | decide +kernel | exact next_of_isNext (by decide +kernel)

/-- Context 0's item is killed. -/
def kill (prod : Bool) : State := vm.updMe fun x =>
  { x with held := some held1, killed := true, prods := if prod then [tensP false] else [] }
def killRun : State := (running []).updMe fun x => { x with killed := true }

theorem test_witness_CoreEvents_itemKill :
    (vm.ctx 0 0).killed = false ∧ (vm.ctx 0 0).held = none ∧
    (∀ p ∈ [false, true], let x := (kill p).ctx 0 0
     x.killed = true ∧ x.held = some held1 ∧ x.pend = .none ∧ ((kill p).core 0).busy 0 = p) ∧
    (kill false).launch held1.launch = none ∧ (killRun.ctx 0 0).killed = true ∧ (killRun.ctx 0 0).held = some held1 ∧
    (killRun.core 0).busy 0 = false ∧ killRun.launch held1.launch = some lau ∧
    (∃ t, exec (.itemKill 0 0) (kill true) = .next t ∧ (t.ctx 0 0).held = some held1) ∧
    (∃ t, exec (.itemKill 0 0) killRun = .next t ∧ (t.ctx 0 0).held = none) := by
  and_intros <;> first | decide +kernel | exact next_and (by decide +kernel) (by decide +kernel)

/-- Launch queue 0 with one slot written, its launch's header at 0x70000. -/
def lhdr : List Byte :=
  toBytes 8 0x1000 ++ toBytes 8 0x80000 ++ toBytes 8 0x90000 ++ toBytes 4 4 ++ [1, 0, 3, 0] ++ toBytes 8 (64 * 2 ^ 22 + 0xFF00)
    ++ [8, 0, 0, 0, 0, 0, 0, 0] ++ toBytes 8 2
def limg (seq fl : Nat) : List Byte := [1, BitVec.ofNat 8 fl] ++ toBytes 2 seq ++ toBytes 4 0 ++ toBytes 8 0x70000 ++ toBytes 48 0
def lq (wi seq : Nat) : State := { vm with
    mem := (((vm.mem.writeN 0x50000 (toBytes 8 wi)).writeN 0x50010 (toBytes 8 0x60000 ++ [1])).writeN 0x60000
      (limg seq 0)).writeN 0x70000 lhdr }.updVdev 0 fun d => { d with lqtab := [(0, BitVec.ofNat 64 (2 ^ 63 + 0x50000))] }

theorem test_witness_WorkEvents_launchTake :
    (16 : Nat) ≤ 16 ∧ tabOn ((vm.vdev 0).lqtab.get 0 0) = false ∧
    (∀ c ∈ [(0, 0), (1, 0), (1, 5)], (let s := lq c.1 c.2
      let u := (s.devRead 0 0x50000 64 false).1
      let ready := u.vdevs.flatMap fun d => (List.range 16).filterMap fun a =>
        if (u.readyLaunch d.1 a).isSome then some (d.1, a) else none
      tabOn ((s.vdev 0).lqtab.get 0 0) = true ∧ tabVa ((s.vdev 0).lqtab.get 0 0) = 0x50000 ∧ s.migrations = [] ∧
      (s.devRead 0 0x50000 64 false).2 = .ok (s.mem.readN 0x50000 64) ∧
      qHdr (s.mem.readN 0x50000 64) true = some ⟨c.1, 0, 0x60000, 1, 0⟩ ∧
      (s.devRead 0 ((⟨c.1, 0, 0x60000, 1, 0⟩ : QHdr).slot 0) 64 false).2 = .ok (limg c.2 0) ∧
      max (s.ti 0 0x50000 true) 0 = 0 ∧ s.launches = [] ∧
      u.readyLaunch 0 0 = (if c = (1, 0) then some (0x60000, 0, limg 0 0) else none) ∧
      nextTurn (u.lastServed 16) ready = (if c = (1, 0) then some (0, 0) else none))) ∧
    numAt (limg 0 0) 2 2 = (⟨1, 0, 0x60000, 1, 0⟩ : QHdr).seq 0 ∧ numAt (limg 5 0) 2 2 ≠ (⟨1, 0, 0x60000, 1, 0⟩ : QHdr).seq 0 := by
  decide +kernel

/-- A header of no queue. -/
theorem test_witness_WorkEvents_header :
    (let s := (lq 1 0).updVdev 0 fun d => { d with lqtab := [(0, BitVec.ofNat 64 (2 ^ 63 + 0x70000))] }
     (s.devRead 0 0x70000 64 false).2 = .ok (s.mem.readN 0x70000 64) ∧ qHdr (s.mem.readN 0x70000 64) true = none) := by
  decide +kernel

theorem test_witness_WorkEvents_start :
    launchSlotOk [2] = false ∧ launchSlotOk (limg 0 0) = true ∧
    (lq 1 0).devRead 0 (numAt (limg 0 0) 8 8) 512 false =
      (((lq 1 0).devRead 0 0x70000 512 false).1, .ok ((lq 1 0).mem.readN 0x70000 512)) ∧
    launchHdrOk ((lq 1 0).mem.readN 0x70000 512) = true ∧ fld (numAt ((lq 1 0).mem.readN 0x70000 512) 32 8) 15 8 ≠ 0 ∧
    ((lq 1 0).devRead 0 0x70000 512 false).1.permitted 0 (numAt ((lq 1 0).mem.readN 0x70000 512) 32 8) ≠ [] := by
  decide +kernel

/-- Launch 0 with every cluster permitted, as f changes it. -/
def lauS (f : Launch → Launch) : State := { vm with launches := [(0, f { lau with priaff := 64 * 2 ^ 22 + 0xFF03 })] }

theorem test_witness_WorkEvents_records :
    vm.launch 0 = none ∧
    (∀ f ∈ [id, (fun l => { l with retries := [⟨1, 1, 1⟩] }), (fun l => { l with kills := [(0, 0)] }),
        (fun l => { l with nrec := 0 }), (fun l => { l with ended := true })],
      (lauS f).launch 0 = some (f { lau with priaff := 64 * 2 ^ 22 + 0xFF03 }) ∧
      (lauS f).nextCluster (f { lau with priaff := 64 * 2 ^ 22 + 0xFF03 }) = some 0) ∧
    (lauS fun l => { l with kills := [(0, 0)] }).migrations = [] ∧ { lau with kills := [(0, 0)] }.dead (⟨1, 0, 1⟩ : Item).wid = true ∧
    lau.dead (⟨1, 1, 1⟩ : Item).wid = false ∧ lau.retries = [] ∧ lau.ended = false ∧ lau.killedAll = false ∧ lau.next < lau.items ∧
    lau.dead (lau.widOf lau.next) = false ∧ lau.freeSlot = some 0 ∧ { lau with nrec := 0 }.freeSlot = none ∧
    { lau with nrec := 0 }.next < { lau with nrec := 0 }.items ∧
    { lau with kills := [(0, 0)] }.dead ({ lau with kills := [(0, 0)] }.widOf 0) = true := by decide +kernel

/-- A record on list p of a cluster, idle for k cycles. -/
def waiting (cl p k : Nat) : State := State.reset.updCluster cl fun c =>
  { c with lists := [(p, [⟨0x70000, 0, 0⟩])], idle := k, ageTicks := 0 }

theorem test_witness_WorkEvents_lists :
    ((waiting 0 5 0).idleCtxs 0).findSome? (fun c => ((waiting 0 5 0).choose 0 c.1).map fun r => (c, r))
      = some ((0, 0), (5, ⟨0x70000, 0, 0⟩)) ∧ (waiting 0 5 0).entryMoving ⟨0x70000, 0, 0⟩ = false ∧
    (∀ c ∈ State.reset.idleCtxs 0, State.reset.choose 0 c.1 = none) ∧
    (State.reset.cluster 0).idle < 64 ∧
    (let s := (waiting 1 5 0).updCluster 0 fun c => { c with idle := 64 }
     64 ≤ (s.cluster 0).idle ∧
     (s.idleCtxs 0).findSome? (fun c => ((stealOrder 0).findSome? fun k =>
       if (s.cluster k).vdev != (s.cluster 0).vdev then none else (s.choose k c.1).map fun r => (k, r)).map fun r => (c, r))
       = some ((0, 0), (1, 5, ⟨0x70000, 0, 0⟩))) ∧
    ((waiting 0 5 0).cluster 0).lists.get [] 5 = [⟨0x70000, 0, 0⟩] ∧
    ((waiting 0 5 0).cluster 0).ageTicks ≤ (waiting 0 5 0).time - 0 ∧
    (((waiting 0 5 0).updCluster 0 fun c => { c with ageTicks := 7 }).time - 0 <
      (((waiting 0 5 0).updCluster 0 fun c => { c with ageTicks := 7 }).cluster 0).ageTicks) := by decide +kernel

/-- The record's page is mapped; it has waited long enough. -/
def ages : State := { vm.updCluster 0 fun c => { c with lists := [(5, [⟨0x70000, 0, 0⟩])], ageTicks := 7 } with time := 7 }

theorem test_witness_WorkEvents_recordAging :
    (ages.cluster 0).lists.get [] 5 = [⟨0x70000, 0, 0⟩] ∧ (ages.cluster 0).ageTicks ≤ ages.time - 0 ∧
    (ages.recWrite (ages.cluster 0).vdev (0x70000 + 56) (toBytes 8 0) 0xFFF).2 = .ok () ∧ ages.entryDead ⟨0x70000, 0, 0⟩ = false ∧
    ∃ t, exec (.recordAging 0) ages = .next t ∧ (t.cluster 0).lists.get [] 6 = [⟨0x70000, 0, 7⟩] := by
  and_intros <;> first | decide +kernel | exact next_and (by decide +kernel) (by decide +kernel)

theorem test_witness_WorkEvents_others : ∀ a, a ≠ 5 → ((waiting 0 5 0).cluster 0).lists.get [] a = [] := by
  intro a h
  have : ((waiting 0 5 0).cluster 0).lists = [(5, [⟨0x70000, 0, 0⟩])] := rfl
  rw [this]
  simp [Tbl.get, h]

theorem test_witness_WorkEvents_dispensers :
    (running []).launch 0 = some lau ∧ 0 < lau.disps.length ∧ (((running []).cluster 0).batch 0 0).ids.length ≤ 4 ∧
    (running []).runsLaunch 0 0 = true ∧ 4 < (((running [1, 2, 3, 4, 5]).cluster 0).batch 0 0).ids.length ∧
    (running []).runsLaunch 1 0 = false ∧
    (let s := lauS fun l => { l with disps := [⟨100, 16, 16, []⟩] }
     s.launch 0 = some { lau with priaff := 64 * 2 ^ 22 + 0xFF03, disps := [⟨100, 16, 16, []⟩] } ∧
     ∀ a, a < 64 → ((s.cluster a).batch 0 0).ids = []) ∧
    (lau.disp 0).next < (lau.disp 0).count ∧ (8 : Nat) ≤ 8 ∧ 8 + 8 ≤ 16 := by decide +kernel

/-- Of a batch, and of returned identifiers, the first eight. -/
theorem test_disp_batch : ((⟨100, 16, 8, []⟩ : Disp).batch 8).1 = [108, 109, 110, 111, 112, 113, 114, 115] ∧
    ((⟨100, 16, 16, [1, 2, 3, 4, 5, 6, 7, 8, 9]⟩ : Disp).batch 8).1 = [1, 2, 3, 4, 5, 6, 7, 8] := by decide +kernel

/-- Copy queue 0 with one slot written, a copy packet of sequence number seq. -/
def cimg (k seq : Nat) : List Byte := [BitVec.ofNat 8 k, 0] ++ toBytes 2 seq ++ toBytes 60 0
def cq (wi seq : Nat) : State := { queued wi with mem := (queued wi).mem.writeN 0x60000 (cimg 1 seq) }
/-- A packet of kind k being served. -/
def pkt (k : Nat) (late : List Nat) : Packet := ⟨0, 0, 0x50000, 0x60000, 0, 0, cimg k 0, some 0, 0, 0, 0, none, none, [], [], [], late⟩
def serving (k : Nat) : State := { vm with packets := [pkt k []] }
/-- The packet was checked while the region its operands reach was being converted. -/
def late : State := { converting with packets := [pkt 5 [0]] }
/-- Its local endpoint lies in a cluster of another virtual device. -/
def away : State := { serving 5 with clusters := [(0, { Cluster.reset with device := some 1 })] }

theorem test_witness_EngineEvents_packetTake :
    (64 : Nat) ≤ 64 ∧ tabOn ((vm.vdev 0).cqtab.get 0 0) = false ∧
    (∀ c ∈ [(0, 0), (1, 0), (1, 5)], (let s := cq c.1 c.2
      let u := (s.devRead 0 0x50000 64 false).1
      tabOn ((s.vdev 0).cqtab.get 0 0) = true ∧ tabVa ((s.vdev 0).cqtab.get 0 0) = 0x50000 ∧ s.migrations = [] ∧
      (s.devRead 0 0x50000 64 false).2 = .ok (s.mem.readN 0x50000 64) ∧
      qHdr (s.mem.readN 0x50000 64) false = some ⟨c.1, 0, 0x60000, 1, 0⟩ ∧
      (s.devRead 0 0x60000 64 false).2 = .ok (cimg 1 c.2) ∧ max (s.ti 0 0x50000 false) 0 = 0 ∧ s.packets = [] ∧
      u.readySlot 0 0 = (if c = (1, 0) then some (⟨1, 0, 0x60000, 1, 0⟩, 0, cimg 1 0) else none) ∧
      nextTurn (u.lastServed 0) (u.readyQueues 0) = (if c = (1, 0) then some (0, 0) else none))) ∧
    (let s : State := { cq 1 0 with cores := converting.cores }
     let u := (s.devRead 0 0x50000 64 false).1
     (s.devRead 0 0x50000 64 false).2 = .ok (s.mem.readN 0x50000 64) ∧ (u.readySlot 0 0).isSome = true ∧
     u.movingCores (u.pkBar (u.packetAt 0 0 0x50000 0x60000 0 0 (cimg 1 0)).1) ≠ []) ∧
    (let u := ((cq 1 0).devRead 0 0x50000 64 false).1
     u.movingCores (u.pkBar (u.packetAt 0 0 0x50000 0x60000 0 0 (cimg 1 0)).1) = []) ∧
    numAt (cimg 1 0) 2 2 = (⟨1, 0, 0x60000, 1, 0⟩ : QHdr).seq 0 ∧ numAt (cimg 1 5) 2 2 ≠ (⟨1, 0, 0x60000, 1, 0⟩ : QHdr).seq 0 := by
  decide +kernel

/-- R230: the conversion that a packet waits for ends, and the packet waits no longer. -/
theorem test_late_packet_goes_on : (late.endConversion 0 ⟨0, 40, 128, 184⟩).packets.map (·.late) = [[]] := by decide +kernel

theorem test_witness_EngineEvents_serving :
    (∀ k ∈ [1, 2, 3, 4, 5], (serving k).packets[0]? = some (pkt k []) ∧ (serving k).migrations = [] ∧ (serving k).pkWaits (pkt k []) = false ∧
      (serving k).pkHome (pkt k []) = true ∧ pkKind (pkt k []).image = k) ∧
    (serving 5).trRuns (pkt 5 []) = true ∧ away.packets[0]? = some (pkt 5 []) ∧ away.pkHome (pkt 5 []) = false ∧
    away.pkWaits (pkt 5 []) = false ∧ late.packets[0]? = some (pkt 5 [0]) ∧ late.pkWaits (pkt 5 [0]) = true ∧
    (1 : Nat) ≤ 2 ∧ (2 : Nat) ≤ 64 ∧ (List.replicate 256 (0 : Byte)).length = 128 * 2 ∧
    (compressBlock 2 1 (List.replicate 256 0)).isSome = true := by decide +kernel

/-- Ranks 0, 1 and 2 of an all-gather on cores 0, 1 and 2; rank 1 relays rank 0's block to rank 2. -/
def party (r : Nat) (taken : Bool) : Party := ⟨0, 0x60000 + 64 * r, 0x50000, 0, 0, 9, 7, r, r, r, 1, 2, 3, 0, 1, 0, 0, 16384, 0, 2 ^ 64 - 1,
  [0xFFFF, 0x1FFFF, 0x8202FFFF], taken, true, false, [], [], 0⟩
def collect (taken : Bool) : State := { ({ vm with parties := [party 0 taken, party 1 taken, party 2 taken] }.updCore 1 fun c =>
  c.setScr 0 (toBytes 8 (7 * 2 ^ 32 + 0x21))) with
  cancels := [⟨0, 9, 7, 2, 1, 0, 0, 0⟩], truncs := [⟨0, 9, 7, 0, 1, 0, 0, 0⟩], notices := [⟨0, 9, 7, 0, 1, 0, 0, 0⟩] }

theorem test_witness_EngineEvents_collectives :
    (collect true).parties[0]? = some (party 0 true) ∧ (party 0 true).taken = true ∧ (party 0 false).taken = false ∧
    (collect false).parties[0]? = some (party 0 false) ∧
    (((collect true).parties.flatMap fun p => (collect true).jobsOf p true)[0]?).isSome = true ∧
    (((collect true).parties.flatMap fun p => (collect true).jobsOf p false)[0]?).isSome = true ∧
    (collect true).partyOf 0 9 7 1 = some (party 1 true) ∧ (collect true).counterHeld (party 1 true) 0 0 = false ∧ (collect false).partyOf 0 9 7 1 = none ∧
    (collect true).cancels[0]? = some ⟨0, 9, 7, 2, 1, 0, 0, 0⟩ ∧ (collect true).truncs[0]? = some ⟨0, 9, 7, 0, 1, 0, 0, 0⟩ ∧
    (collect true).notices[0]? = some ⟨0, 9, 7, 0, 1, 0, 0, 0⟩ ∧
    (((collect true).core 1).plane ((party 1 true).counter 0 0)).tag = 7 ∧
    (party 1 true).counter 0 0 + 8 ≤ ((collect true).core 1).spsz ∧
    (collect true).vdevOf (party 1 true).rcore = (party 1 true).vdev ∧
    (((collect true).core 2).plane ((party 2 true).counter 0 0)).tag ≠ 7 := by decide +kernel

/-- A copy of a box of e0 by e1 elements between two endpoints, of which 0x8000 is the poster's own bytes from 0; rows 1 and
127 of a gather, and row 200 outside the extents; with a translation held. -/
def cpImg (src dst esz e0 e1 : Nat) : List Byte :=
  [1, 0] ++ toBytes 14 0 ++ toBytes 2 src ++ toBytes 2 dst ++ [BitVec.ofNat 8 esz, 2] ++ toBytes 32 0 ++ toBytes 2 e0
    ++ toBytes 2 e1 ++ toBytes 6 0x000100010001
def gaImg (k : Nat) : List Byte :=
  [BitVec.ofNat 8 k, 0] ++ toBytes 6 0 ++ toBytes 8 (2 ^ 64 - 1) ++ toBytes 8 0 ++ toBytes 8 (0x1000 + 2 ^ 16 + 2 ^ 48 * 3)
    ++ toBytes 8 (2 ^ 61 + 2048) ++ toBytes 24 0
def moves (img : List Byte) (a b : Option Handle) (exp : Nat) : Packet :=
  ⟨0, 0, 0x50000, 0x60000, 0, 0, img, some 0, 0, 0, exp, a, b, [1, 0xFFFFFFFF, 127, 200] ++ List.replicate 124 0xFFFFFFFF,
    [fetTl], [], []⟩
/-- A BPN8 tensor of 16 by 63 elements at 0x180000: two bytes of padding in each plane. -/
def planesH : Handle := ⟨0x180000, 2, 5, 2, 0, 0x5A, [16, 63, 1, 1, 1], [0, 0, 0, 0, 0], 0⟩

theorem test_witness_EngineEvents_copy : tens.intact = true ∧
    (∀ c ∈ [(tensH, moves (cpImg 0 0x8000 1 2 1) (some tensH) none 4, moves (cpImg 0x8000 0 1 2 1) none (some tensH) 4),
        (planesH, moves (cpImg 0 0x8000 0 2 1) (some planesH) none 2, moves (cpImg 0x8000 0 0 2 1) none (some planesH) 2)],
      let spots := fun (cs : List (List Nat)) => if c.1.kind ≠ 2 then c.1.spots cs else c.1.planeSpotsPadded cs
      let bs := tens.localRead (c.2.2.local_ (cpWord c.2.2.image false)) c.2.2.exp
      (tens.cpRead c.2.1).2.2 = none ∧ (tens.cpRead c.2.2).2.2 = none ∧ (c.1.kind ≠ 2 → (tens.cpWrite c.2.2 (bs.map some)).2 = none) ∧ c.2.1.src = some c.1 ∧ c.2.2.src = none ∧ c.2.1.dst = none ∧ c.2.2.dst = some c.1 ∧
      tens.reaches c.2.1.access .r (spots (cpCoords c.2.1.image false)) = true ∧
      tens.reaches c.2.2.access .w (spots (cpCoords c.2.2.image true)) = true ∧
      bs.length = (if c.1.kind ≠ 2 then c.1.spots (cpCoords c.2.2.image true) else (cpCoords c.2.2.image true).map fun _ => none).length ∧
      ∀ x ∈ spots (cpCoords c.2.2.image true), ∀ y ∈ spots (cpCoords c.2.2.image true),
        x.bind (physOf c.2.2.access) = y.bind (physOf c.2.2.access) → x = y) := by decide +kernel

/-- R24: the padding of eight planes of 1,008 elements, each padded to a sector, written zero. -/
theorem test_plane_padding :
    planesH.padBits [[0, 0, 0, 0, 0]] = (List.range 8).flatMap (fun k => tab 16 fun i =>
      (0x180000 + 128 * k + 126 + i / 8, i % 8)) ∧
    mergeBits 0xFF ((List.range 8).map fun i => (i, false, false)) = 0 := by decide +kernel

/-- R256: the memory of a copy's source or destination has been removed since its take. -/
theorem test_witness_EngineEvents_refused :
    (let s : State := { tens with removed := [(0x100000, 65536)] }
     let r := s.cpRead (moves (cpImg 0x8000 0 1 2 1) none (some tensH) 4)
     r.2.2 = none ∧ (r.1.cpWrite (moves (cpImg 0x8000 0 1 2 1) none (some tensH) 4) r.2.1).2 = some 0x100000 ∧
     (s.cpRead (moves (cpImg 0 0x8000 1 2 1) (some tensH) none 4)).2.2 = some 0x100000) := by decide +kernel

theorem test_witness_EngineEvents_rows :
    ∀ k ∈ [2, 3], let p := moves (gaImg k) (some tensH) none 12
      let d := gDesc p.image
      let lanes := activeLanes p.idx
      p.src = some tensH ∧ pkKind p.image = k ∧ lanes = [0, 2, 3] ∧
      (∀ n, n < lanes.length → nth 0 p.idx (nth 0 lanes n) < tensH.e (gDim d) →
        tens.reaches p.access (if k = 2 then .r else .w)
          (tensH.spots (tensH.rowCoords (gBase d) (gLen d) (gDim d) (nth 0 p.idx (nth 0 lanes n)))) = true) ∧
      ¬ nth 0 p.idx (nth 0 lanes 2) < tensH.e (gDim d) := by decide +kernel

/-- Rank 0 has sent what it sends; rank 1 lies on package 5. -/
def sentParty : Party := { party 0 true with sent := [(planeKey 0 1 0, 2)] }
def farParty : Party := { party 0 true with entries := [0xFFFF, 5, 0x8202FFFF] }
def farCol : State := { collect true with
  parties := [farParty, party 1 true, party 2 true], remotes := [⟨5, 0, 9, 7, 1, 1, 16384, 0⟩] }

theorem test_witness_EngineEvents_coll :
    (let mine := fun (s : State) => s.parties.find? fun x => x.vdev == (pkt 4 []).vdev && x.slot == (pkt 4 []).slot
       && x.taken && !x.done
     mine (serving 4) = none ∧ mine (collect true) = some (party 0 true) ∧ (party 0 true).sentAll = false ∧
     mine { serving 4 with parties := [sentParty] } = some sentParty ∧ sentParty.sentAll = true) ∧
    (party 0 true).announced = true ∧ ({ party 0 true with announced := false }).taken = true ∧
    (party 0 true).refused = false ∧ ({ party 0 true with done := true, entries := [] }).refused = true ∧
    (party 0 true).peer 1 = 0xFFFF ∧ farParty.peer 1 = 5 := by decide +kernel

theorem test_witness_EngineEvents_plane :
    (∀ s ∈ [collect true, farCol], (s.parties.flatMap fun p => s.jobsOf p true)[0]?.any (fun j => decide (
        (j.k, j.r.rank, j.t) = (0, 1, 0) ∧ s.vdevOf j.p.core = j.p.vdev ∧ j.p.src + 2048 ≤ (s.core j.p.core).spsz ∧
          (j.peer = 0xFFFF ∨ j.peer = 5) ∧ s.vdevOf j.r.rcore = j.r.vdev ∧ j.r.counter 0 0 + 8 ≤ (s.core j.r.rcore).spsz ∧
          j.r.dst + 2048 ≤ (s.core j.r.rcore).spsz ∧ ((s.core j.r.rcore).plane (j.r.counter 0 0)).tag = j.r.tag ∧
          ((s.core j.r.rcore).plane (j.r.counter 0 0)).frozen = false ∧ j.r.tb = 2 ^ 64 - 1)) = true) ∧
    (let m : PlaneMsg := ⟨0, 9, 7, 0, 1, 0, 0, 0⟩
     farCol.partyOf m.vdev m.group m.tag m.src = some farParty ∧ farParty.peer m.dst ≠ 0xFFFF ∧
     { farCol with cancels := [m] }.cancels[0]? = some m ∧ (collect true).partyOf m.vdev m.group m.tag m.dst = some (party 1 true) ∧
     (collect false).partyOf m.vdev m.group m.tag m.dst = none ∧ (collect false).partyOf m.vdev m.group m.tag m.src = none) := by
  decide +kernel

/-- vm with two 64 KB pages: 0x40000000 in LPDDR, 0x40010000 in HBM; the tier open; f changes the Pier dies. -/
def lpdPte : Nat := 2 ^ 42 + 0x23F
def hbmPte : Nat := 0x100000 + 0x3F
def paged (moving : Bool) (f : Pier → Pier) : State := { vm with
  mem := ((vm.mem.writeN 0x20008 (toBytes 8 0x30001)).writeN 0x30000 (toBytes 8 0x40001)).writeN 0x40000
    (toBytes 8 (lpdPte + if moving then 0x800 else 0) ++ toBytes 8 hbmPte),
  tierOpen := true, access := [(2 ^ 42 / 65536, 100)],
  piers := tab 4 fun p => (p, f { Pier.reset with migctl := 0x004000100000020F, frames := [0x200000] }) }
def lpd : PageAt := ⟨0, 0x40000000, 0x40000, lpdPte, 65536⟩
def req1 : PrefReq := ⟨0, 0x500, 0x40000000⟩

def home : Nat := homePier (2 ^ 42)

theorem test_witness_PageEvents_pageWalk :
    tlbFind ((paged false id).core 0).utlb ((paged false id).vdevOf 0) 0x40000000 = none ∧
    (paged false id).lookup ((paged false id).tlbs 0) ((paged false id).vdevOf 0) 0x40000000 = some ⟨2 ^ 42, lpdPte, 65536, 0x40000⟩ ∧
    fld lpdPte 11 11 = 0 ∧ (paged false id).upset = [] ∧
    tlbFind ((fetS fetW).core 0).utlb ((fetS fetW).vdevOf 0) 0x1000 ≠ none ∧
    ∃ t, exec (.pageWalk 0 0x40000000) (paged false id) = .next t ∧ (t.core 0).utlb.length = 1 := by
  and_intros <;> first | decide +kernel | exact next_and (by decide +kernel) (by decide +kernel)

theorem test_witness_PageEvents_pagePromotion :
    bit ((paged false id).pier home).migctl 0 = true ∧ ((paged false id).pier home).frames = 0x200000 :: [] ∧
    ((paged false id).pages.find? fun p => p.tier != 0 && !p.moving && homePier p.frame == home
      && decide (bits ((paged false id).pier home).migctl 63 48 ≤ (paged false id).access.get 0 (p.frame / 65536))).map (fun p => (p.va, p.entry, p.pte))
      = some (lpd.va, lpd.entry, lpd.pte) ∧
    bit (vm.pier 0).migctl 0 = false ∧ (vm.pier 0).frames = [] ∧ lpd.pte < 2 ^ 64 ∧
    ∃ t, exec (.pagePromotion home) (paged false id) = .next t ∧ t.migrations.length = 1 := by
  and_intros <;> first | decide +kernel | exact next_and (by decide +kernel) (by decide +kernel)

theorem test_witness_PageEvents_pageDemotion :
    bit ((paged false id).pier (homePier 0x100000)).migctl 0 = true ∧ (paged false id).tierOpen = true ∧
    ((paged false id).pier (homePier 0x100000)).frames.length < bits ((paged false id).pier (homePier 0x100000)).migctl 15 1 ∧
    ((paged false id).coldest ((paged false id).pages.filter fun p => p.tier == 0 && !p.moving
      && homePier p.frame == homePier 0x100000 && !(paged false id).pinned p.frame)).isSome = true ∧ vm.tierOpen = false ∧
    isNext (exec (.pageDemotion (homePier 0x100000)) (paged false id)) = true := by decide +kernel

/-- A promotion and a demotion under way. -/
def promo : Migration := ⟨0, 0x40000, 0x40000000, 2 ^ 42, 0x200000, 0, false⟩
def demo : Migration := ⟨0, 0x40008, 0x40010000, 0x100000, 2 ^ 42 + 65536, 1, true⟩
def moving (f : Pier → Pier) (pins : Tbl Nat) : State := { paged true f with migrations := [promo, demo], pins := pins }
def wait1 : AllocWait := ⟨0x40008, 128⟩
def wait2 : AllocWait := ⟨0x40000, 1⟩

def pinOld : Tbl Nat := [(2 ^ 42 / 65536, 1)]
def waits (pins : Tbl Nat) : State := moving (fun d => { d with allocWaits := [wait2] }) pins

theorem test_witness_PageEvents_migrationCopy :
    (moving id []).migrations[0]? = some promo ∧ (moving id pinOld).pinned promo.old = true ∧
    (moving id []).pinned promo.old = false ∧ promo.chunked = false ∧ (moving id []).shortDie promo = none ∧
    (moving id []).upset = [] ∧ promo.pte + 8 ≤ promo.new ∧ (0 : Nat) < 65536 ∧
    isNext (exec (.migrationCopy 0) (moving id [])) = true := by decide +kernel

theorem test_witness_PageEvents_migrationCopy_waits :
    (moving id []).migrations[1]? = some demo ∧ (moving id []).pinned demo.old = false ∧
    ((moving id []).shortDie demo).isSome = true ∧ (∀ q ∈ List.range 4, ((moving id []).pier q).allocWaits = []) := by
  decide +kernel

theorem test_witness_PageEvents_allocatingWriteResume :
    (∀ p ∈ [[], pinOld], ((waits p).pier 0).allocWaits = wait2 :: [] ∧
      (waits p).migrations.findIdx? (fun z => z.pte == wait2.migration) = some 0 ∧ (waits p).migrations[0]? = some promo) ∧
    (waits []).pinned promo.old = false ∧ (waits []).shortDie promo = none ∧ (waits pinOld).pinned promo.old = true ∧
    ((moving id []).pier 0).allocWaits = [] ∧ isNext (exec (.allocatingWriteResume 0) (waits [])) = true := by decide +kernel

theorem test_witness_PageEvents_epochHalving : ∃ t, exec (.epochHalving home) (paged false id) = .next t ∧
    t.access.get 0 (2 ^ 42 / 65536) = 50 := next_and (by decide +kernel) (by decide +kernel)

/-- A request for the page in LPDDR at the head of every list; the Pier dies as f leaves them. -/
def asks (m : Bool) (page : Nat) (f : Pier → Pier) : State :=
  paged m fun d => f { d with prefetch := [{ req1 with page := page }] }

theorem test_witness_PageEvents_prefetchRequestServe :
    ((paged false id).pier 0).prefetch = [] ∧ ((asks false 0x40000000 id).pier 0).prefetch = req1 :: [] ∧
    (asks false 0x40000000 id).frameMoving req1.hint = false ∧ (moving id []).frameMoving (2 ^ 42 + 16) = true ∧
    (asks false far id).lookup [] 0 far = none ∧ (asks false 4096 id).lookup [] 0 4096 = some ⟨4096, 0x3F, 2 ^ 30, 0x20000⟩ ∧
    tierOf 4096 = 0 ∧ (asks false 0x40000000 id).lookup [] 0 0x40000000 = some ⟨2 ^ 42, lpdPte, 65536, 0x40000⟩ ∧
    tierOf (2 ^ 42) ≠ 0 ∧ (asks false 0x40000000 id).walk 0 0x40000000 = some ⟨2 ^ 42, lpdPte, 65536, 0x40000⟩ ∧
    lpd.moving = false ∧ (asks false 0x40000000 id).pinned lpd.frame = false ∧
    ((asks false 0x40000000 id).pier 0).frames = 0x200000 :: [] ∧ bit ((asks false 0x40000000 id).pier 0).migctl 0 = true ∧
    ((asks false 0x40000000 fun d => { d with frames := [] }).pier 0).frames = [] ∧
    { lpd with pte := lpdPte + 0x800 }.moving = true ∧
    ∃ t, exec (.prefetchRequestServe 0) (asks false 4096 id) = .next t ∧ (t.vdev 0).pfhit = 1 := by
  and_intros <;> first | decide +kernel | exact next_and (by decide +kernel) (by decide +kernel)

/-- vm with one extent granted, a chunk of it free, and a dirty line of L2 in it. -/
def ext1 : Nat := 2 ^ 43
def extS : State := { vm with
  extents := [(ext1, 65536)], l2 := [⟨ext1 / 512, 15, 1, 0, 0xFFF, 0, 0, .read, 0⟩],
  piers := [(0, { Pier.reset with free := [ext1, 2 ^ 42] })] }

theorem test_witness_PageEvents_extentReleaseRequest : extS.upset = [] ∧
    ∃ t, exec (.extentReleaseRequest ext1 65536) extS = .next t ∧ (t.pier 0).free = [2 ^ 42] ∧ t.extents = [] ∧
      t.l2.map (·.dirty) = [0] := ⟨rfl, next_and (by decide +kernel) (by decide +kernel)⟩

theorem test_witness_PageEvents_forcedExtentRemoval : (1 : Nat) ≤ 65536 ∧ vm.l2 = [] ∧ vm.msc = [] ∧
    (∀ c ∈ vm.cores, c.2.l1 = []) ∧
    ∃ t, exec (.forcedExtentRemoval ext1 65536) extS = .next t ∧ t.removed = [(ext1, 65536)] ∧ t.l2 = [] := by
  and_intros <;> first | decide +kernel | exact next_and (by decide +kernel) (by decide +kernel)

theorem test_witness_PageEvents_extentGrant : ∃ t, exec (.extentGrant ext1 65536) vm = .next t ∧ t.extents = [(ext1, 65536)] :=
  next_and (by decide +kernel) (by decide +kernel)

theorem test_witness_PageEvents_chunkAddWrite :
    ((vm.piers.any fun d => d.2.free.contains 0x40000000000) || vm.chunkOf.any fun e => e.2.contains 0x40000000000) = false ∧
    2 ^ 42 ≤ fld 0x40000000000 51 7 * 128 ∧ fld 0x40000000000 51 7 * 128 + 128 ≤ 2 ^ 42 + 4096 * 2 ^ 30 ∧
    ¬ 2 ^ 42 ≤ fld 0 51 7 * 128 ∧ inList vm.extents 0 128 = false ∧ (0 : Nat) < 4 ∧ vm.recovery = false ∧
    ∃ t, exec (.chunkAddWrite 0 0x40000000000) vm = .next t ∧ (t.pier 0).free = [0x40000000000] := by
  and_intros <;> first | decide +kernel | exact next_and (by decide +kernel) (by decide +kernel)

theorem test_witness_PageEvents_chunkRsvWrite : 5 % 2 ^ 32 < 1572864 ∧ 1572864 ≤ 1572865 % 2 ^ 32 ∧
    ∃ t, exec (.chunkRsvWrite 3 1572865) vm = .next t ∧ (t.pier 3).chunkRsv = 1572865 := by
  and_intros <;> first | decide +kernel | exact next_and (by decide +kernel) (by decide +kernel)

theorem test_witness_PageEvents_frameAddWrite : { vm with recovery := true }.recovery = true ∧
    ∃ t, exec (.frameAddWrite 3 0x200000) vm = .next t ∧ (t.pier 3).frames = [0x200000] :=
  ⟨rfl, next_and (by decide +kernel) (by decide +kernel)⟩

/-- A page that migrates holds accesses back (R268): the fetch of its bundles, a record of it, and the host's. -/
def pageMoves : State := (moving id []).updMe fun x => { x with held := some held1, pc := 0x40000000 }

theorem test_witness_moving :
    (let s := pageMoves.updMe fun x => { x with s := [(1, 0x40000000)] }
     s.readS r1 = .ok 0x40000000 ∧ s.outsideWindow 0x40000000 1 = true ∧
     (s.lookup (s.tlbs s.cur) (s.vdevOf s.cur) 0x40000000).isSome = true ∧
     s.moving (s.tlbs s.cur) (s.vdevOf s.cur) 0x40000000 1 = true) ∧
    pageMoves.moving [] 0 0x40000000 8 = true ∧
    ({ pageMoves with issue := { Issue.none with addr := 0x40000000 } }.fetchWords 0 true 8 0x40000000).2 = .error (0, 0x40000000) ∧
    pageMoves.hostVa 0 0x40000000 8 = some 0x40000000 ∧
    (((moving id []).updMe fun x => { x with held := some { held1 with addr := 0x40000000 }, preq := true }).recordMoving 0 0 = true) ∧
    (({ moving id [] with launches := [(0, lau)] }).entryMoving ⟨0x40000000, 0, 0⟩ = true) := by decide +kernel

theorem test_witness_PlatformEvents_host :
    vm.hostVa 0 4096 8 = some 4096 ∧ vm.hostVa 0 far 8 = none ∧ vm.hostVa 64 0 8 = none ∧
    vm.devWrite 0 4096 [1, 2] true 0xFFF = ((vm.devWrite 0 4096 [1, 2] true 0xFFF).1, .ok ()) ∧
    vm.devWrite 0 far [1, 2] true 0xFFF = ((vm.devWrite 0 far [1, 2] true 0xFFF).1, .error (1, far)) ∧
    vm.devRead 0 4096 2 true = ((vm.devRead 0 4096 2 true).1, .ok [0, 0]) ∧
    vm.devRead 0 far 2 true = ((vm.devRead 0 far 2 true).1, .error (1, far)) ∧
    vm.translate [] 0 4096 .w true = .ok ⟨4096, 0x3F, 2 ^ 30, 0x20000⟩ ∧ vm.readCause 4096 8 = 0 ∧ vm.upset = [] ∧
    4096 % 8 = 0 ∧ (15 : Nat) < 16 ∧ (63 : Nat) < 64 ∧ (16 : Nat) ≤ 16 ∧ vm.bootstat = [] ∧
    ({ vm with bootstat := List.replicate 64 7 } : State).bootstat.length = 64 ∧ (7 : Nat) < 8 ∧ vm.waitq = [] ∧ vm.migrations = [] ∧
    { vm with recovery := true }.recovery = true := by decide +kernel

/-- An announcement of a peer, and a plane. -/
def wireM (peer : Nat) : Wire := ⟨peer, 0, .announce, 9, 7, 1, 0, 0, 0, 0, false, 1, 16384, 0, []⟩

theorem wireOf_peer (q v : Nat) (bs : List Byte) :
    wireOf q v bs = (wireOf 0 v bs).map fun m => { m with peer := q } := by
  simp only [wireOf, Option.map_map]
  rfl

theorem test_witness_PlatformEvents_wire :
    (∀ q, wireOf q 0 (wireM q).bytes = some (wireM q) ∧ vm.wireHeld (wireM q) = false ∧
      { vm with wire := [wireM q] }.wire = wireM q :: [] ∧ (wireM q).peer = q ∧ ∀ x ∈ vm.wire, x.peer = q → x.vdev ≠ 0) ∧
    (let m : Wire := { wireM 5 with kind := .plane, data := [1, 2], wide := true, planes := 255 }
     wireOf 5 0 m.bytes = some m ∧ m.data.length ≤ 2048 ∧ m.planes < 256) :=
  ⟨fun q => ⟨by
    rw [wireOf_peer, show (wireM q).bytes = (wireM 0).bytes from rfl, show wireOf 0 0 (wireM 0).bytes = some (wireM 0) by decide +kernel]
    rfl, rfl, rfl, rfl, nofun⟩, by decide +kernel⟩

theorem test_witness_PlatformEvents_part :
    (31 : Nat) < 32 ∧ (3 : Nat) < 4 ∧ (7 : Nat) < 8 ∧ 8 ≤ 16 ∧ (1 : Nat) < 2 ∧ (2 : Nat) ≤ 2 ∧ (127 : Nat) < 128 ∧
    10000 ≤ 10000 ∧ 9999 < 10000 ∧ (143 : Nat) < 144 ∧ (63 : Nat) ≠ 9 ∧
    ([1, 2, 3] : List Byte).length ≤ 33554432 ∧ (List.replicate 32 (0 : Byte)).length = 32 ∧ (105 : Nat) ≤ 105 ∧
    (100 : Nat) ≤ 100 ∧ (100 < 103 ∧ (103 : Nat) < 105) ∧ (115 : Nat) ≤ 115 ∧ (5200 : Nat) < 5201 ∧ (114 : Nat) < 115 ∧
    numAt [5, 0, 0, 0] 0 4 < ({ vm with flash := vm.flash.writeN 67108864 [9] } : State).floor + 10 ∧
    vm.upset = [] ∧ vm.gone 4096 2 = false ∧ vm.recovery = false ∧ vm.sysPc = none ∧
    { vm with sysPc := some 0 }.sysPc ≠ none ∧ { vm with recovery := true }.recovery = true := by decide +kernel

/-- R432: a record's page needs both permissions: vm's, writable but not readable. -/
theorem test_record_permissions :
    (let s : State := { vm with mem := vm.mem.writeN 0x20000 [0x3B] }
     (s.devWrite 0 4096 [1] false 0xFFF).2 = .ok () ∧ (s.recWrite 0 4096 [1] 0xFFF).2 = .error (2, 4096) ∧
     (vm.recWrite 0 4096 [1] 0xFFF).2 = .ok ()) := by decide +kernel

/-- R143, R144: pair value 130 is lane 2 of rcu.val1 where rcu.val0 was never moved. -/
theorem test_pair_values_reset :
    (let u : UnitOp := ⟨0, 0, 0x90, [(0x42, 2)], Units.reset.val0, tab 128 fun i => BitVec.ofNat 32 (i + 1), 0, 0, Units.reset, [], none, 0⟩
     u.pairEnc 2 = 0 ∧ u.pairEnc 130 = 3) := by decide +kernel

/-- R334: every cluster that a launch permits belongs to another virtual device (log 116). -/
theorem test_witness_WorkEvents_noCluster :
    (let l : Launch := { lau with priaff := 2 ^ 22 + 0xFF03 }
     let s : State := { vm with launches := [(0, l)] }.updCluster 0 fun c => { c with device := some 1 }
     s.launch 0 = some l ∧ s.nextCluster l = none) := by decide +kernel

end Sys2Proof.Tests
end

section
/-! PROOFS. The scalar and control instructions: values of class S (R68-R75) as arithmetic on the sources, and the
statements about what the instructions land. -/

namespace Sys2Proof.Machine

open Sys2Proof

/-! ## What an instruction of each shape lands -/

theorem exec_of_alu1 {i : Instr} {s : State} {d : SDst} {a : SSrc} {n : Nat} {f : Word → Word} {x v : Word}
    (shape : exec i s = slot s (s.alu1 d a n f)) (hx : s.readS a = .ok x) (value : f x = v) :
    exec i s = .next (s.landX (sdst d) v n 0) := by
  rw [shape, State.alu1, hx, ← value]
  rfl

theorem exec_of_alu2 {i : Instr} {s : State} {d : SDst} {a b : SSrc} {n : Nat} {f : Word → Word → Word} {x y v : Word}
    (shape : exec i s = slot s (s.alu2 d a b n f)) (hx : s.readS a = .ok x) (hy : s.readS b = .ok y)
    (value : f x y = v) : exec i s = .next (s.landX (sdst d) v n 0) := by
  rw [shape, State.alu2, hx, hy, ← value]
  rfl

theorem exec_of_alu3 {i : Instr} {s : State} {d : SDst} {a b : SSrc} {n : Nat} {f : Word → Word → Word → Word}
    {o x y v : Word} (shape : exec i s = slot s (s.alu3 d a b n f)) (ho : s.readD d = .ok o) (hx : s.readS a = .ok x)
    (hy : s.readS b = .ok y) (value : f o x y = v) : exec i s = .next (s.landX (sdst d) v n 0) := by
  rw [shape, State.alu3, ho, hx, hy, ← value]
  rfl

theorem exec_movhi {s : State} {d : BitVec 6} {o : Word} (i : BitVec 16) (ho : s.readD d = .ok o) :
    exec (.movhi d i) s = .next (s.landX (sdst d) ((o <<< 16) ||| i.setWidth 64) 1 0) := by
  change slot s (s.readD d >>= _) = _
  rw [ho]
  rfl

theorem exec_cmp {s : State} {a b : SSrc} {x y : Word} (p : BitVec 3) (c : Cond)
    (hx : s.readS a = .ok x) (hy : s.readS b = .ok y) : exec (.cmp p c a b) s = .next (s.landP p (condW c x y)) := by
  change slot s (s.readS a >>= _) = _
  rw [hx, bind_ok, hy]
  rfl

theorem exec_cmpi {s : State} {a : SSrc} {x : Word} (p : BitVec 3) (c : Cond) (i : BitVec 9)
    (hx : s.readS a = .ok x) : exec (.cmpi p c a i) s = .next (s.landP p (condW c x (imm9 i))) := by
  change slot s (s.readS a >>= _) = _
  rw [hx]
  rfl

theorem landP_eq (s : State) (p : BitVec 3) (v : Bool) :
    s.landP p v = s.landX (.p p.toNat) (if v then 1 else 0) 1 0 := by
  cases v <;> rfl

/-! ## Words and integers -/

theorem signExtend_eq_ofInt {n : Nat} (i : BitVec n) : (i.signExtend 64 : Word) = BitVec.ofInt 64 i.toInt := rfl

theorem toInt_imm9 (i : BitVec 9) : (imm9 i).toInt = i.toInt := BitVec.toInt_signExtend_of_le (by decide)

theorem add_eq_ofInt (x y : Word) : x + y = BitVec.ofInt 64 (x.toInt + y.toInt) := by
  rw [BitVec.ofInt_add, BitVec.ofInt_toInt, BitVec.ofInt_toInt]

theorem sub_eq_ofInt (x y : Word) : x - y = BitVec.ofInt 64 (x.toInt - y.toInt) := by
  rw [Int.sub_eq_add_neg, BitVec.ofInt_add, BitVec.ofInt_neg, BitVec.ofInt_toInt, BitVec.ofInt_toInt,
    BitVec.sub_eq_add_neg]

theorem eq_zero_iff_toNat (y : Word) : y = 0 ↔ y.toNat = 0 := BitVec.toNat_inj.symm

theorem eq_zero_iff_toInt (y : Word) : y = 0 ↔ y.toInt = 0 := BitVec.toInt_inj.symm

/-! ## Minima and maxima (R68) -/

theorem minW_eq (x y : Word) : minW x y = BitVec.ofInt 64 (min x.toInt y.toInt) := by
  rw [minW, min_def, ← apply_ite BitVec.toInt, BitVec.ofInt_toInt]

theorem maxW_eq (x y : Word) : maxW x y = BitVec.ofInt 64 (max x.toInt y.toInt) := by
  rw [maxW, max_def, ← apply_ite BitVec.toInt, BitVec.ofInt_toInt]

theorem minuW_eq (x y : Word) : minuW x y = BitVec.ofNat 64 (min x.toNat y.toNat) := by
  rw [minuW, min_def, ← apply_ite BitVec.toNat, BitVec.ofNat_toNat, BitVec.setWidth_eq]

theorem maxuW_eq (x y : Word) : maxuW x y = BitVec.ofNat 64 (max x.toNat y.toNat) := by
  rw [maxuW, max_def, ← apply_ite BitVec.toNat, BitVec.ofNat_toNat, BitVec.setWidth_eq]

/-! ## Shifts (R69) -/

theorem shiftLeft_eq_ofNat (x : Word) (n : Nat) : x <<< n = BitVec.ofNat 64 (x.toNat * 2 ^ n) := by
  apply BitVec.eq_of_toNat_eq
  rw [BitVec.toNat_shiftLeft, BitVec.toNat_ofNat, Nat.shiftLeft_eq]

theorem shiftRight_eq_ofNat (x : Word) (n : Nat) : x >>> n = BitVec.ofNat 64 (x.toNat / 2 ^ n) := by
  rw [← Nat.shiftRight_eq_div_pow, ← BitVec.toNat_ushiftRight, BitVec.ofNat_toNat, BitVec.setWidth_eq]

theorem sshiftRight_eq_ofInt (x : Word) (n : Nat) : x.sshiftRight n = BitVec.ofInt 64 (x.toInt / 2 ^ n) := by
  rw [BitVec.sshiftRight_eq, Int.shiftRight_eq_div_pow]
  norm_cast

theorem shlW_eq (x y : Word) : shlW x y = if y.toNat < 64 then BitVec.ofNat 64 (x.toNat * 2 ^ y.toNat) else 0 := by
  rw [shlW, shiftLeft_eq_ofNat]

theorem shrW_eq (x y : Word) : shrW x y = if y.toNat < 64 then BitVec.ofNat 64 (x.toNat / 2 ^ y.toNat) else 0 := by
  rw [shrW, shiftRight_eq_ofNat]

/-- All bits of a value shifted out leave copies of its sign. -/
theorem sshiftRight_64 (x : Word) : x.sshiftRight 64 = if 0 ≤ x.toInt then 0 else 0xFFFFFFFFFFFFFFFF := by
  have lower := BitVec.le_toInt x
  have upper := BitVec.toInt_lt (x := x)
  rw [sshiftRight_eq_ofInt]
  split
  · rw [show x.toInt / 2 ^ 64 = 0 by omega]
    rfl
  · rw [show x.toInt / 2 ^ 64 = -1 by omega]
    rfl

theorem sarW_eq (x y : Word) : sarW x y = if y.toNat < 64 then BitVec.ofInt 64 (x.toInt / 2 ^ y.toNat)
    else if 0 ≤ x.toInt then 0 else 0xFFFFFFFFFFFFFFFF := by
  rw [sarW]
  split
  next h => rw [min_eq_left (by omega), sshiftRight_eq_ofInt]
  next h => rw [min_eq_right (by omega), sshiftRight_64]

/-! ## Division (R70) -/

theorem divW_eq (x y : Word) : divW x y = if y.toInt = 0 then 0xFFFFFFFFFFFFFFFF
    else if x.toInt = -2 ^ 63 ∧ y.toInt = -1 then 0x8000000000000000 else BitVec.ofInt 64 (x.toInt.tdiv y.toInt) := by
  simp only [divW, beq_iff_eq, eq_zero_iff_toInt]
  split
  · rfl
  · split
    next overflow =>
      rw [overflow.1, overflow.2]
      rfl
    next => rfl

theorem remW_eq (x y : Word) : remW x y = if y.toInt = 0 then x
    else if x.toInt = -2 ^ 63 ∧ y.toInt = -1 then 0 else BitVec.ofInt 64 (x.toInt.tmod y.toInt) := by
  simp only [remW, beq_iff_eq, eq_zero_iff_toInt]
  split
  · rfl
  · split
    next overflow =>
      rw [overflow.1, overflow.2]
      rfl
    next => rfl

theorem divuW_eq (x y : Word) :
    divuW x y = if y.toNat = 0 then 0xFFFFFFFFFFFFFFFF else BitVec.ofNat 64 (x.toNat / y.toNat) := by
  simp only [divuW, beq_iff_eq, eq_zero_iff_toNat, BitVec.udiv_def]
  rfl

theorem remuW_eq (x y : Word) : remuW x y = if y.toNat = 0 then x else BitVec.ofNat 64 (x.toNat % y.toNat) := by
  simp only [remuW, beq_iff_eq, eq_zero_iff_toNat, BitVec.umod_def]

/-! ## Constants and bit counts (R71) -/

/-- The shifted value and the constant have no bit in common, so joining them adds them. -/
theorem shiftLeft_or_setWidth (o : Word) (i : BitVec 16) :
    (o <<< 16) ||| i.setWidth 64 = BitVec.ofNat 64 (o.toNat * 65536 + i.toNat) := by
  have disjoint : (o <<< 16) &&& i.setWidth 64 = 0#64 := by
    ext k hk
    have : ¬ k < 16 → i.getLsbD k = false := fun h => BitVec.getLsbD_of_ge i k (by omega)
    by_cases h : k < 16 <;> simp [h, this]
  rw [← BitVec.add_eq_or_of_and_eq_zero _ _ disjoint, shiftLeft_eq_ofNat, ← BitVec.ofNat_toNat, ← BitVec.ofNat_add]
  rfl

theorem clzN_zero : clzN 0 = 64 := rfl

theorem clzN_spec {n : Nat} (nonzero : n ≠ 0) (bound : n < 2 ^ 64) :
    clzN n < 64 ∧ 2 ^ (63 - clzN n) ≤ n ∧ n < 2 ^ (64 - clzN n) := by
  have top : n.log2 < 64 := (Nat.log2_lt nonzero).2 bound
  have clz : clzN n = 63 - n.log2 := by simp [clzN, nonzero]
  rw [clz, show 63 - (63 - n.log2) = n.log2 by omega, show 64 - (63 - n.log2) = n.log2 + 1 by omega]
  exact ⟨by omega, Nat.log2_self_le nonzero, Nat.lt_log2_self⟩

theorem ctzFrom_zero (k : Nat) : ctzFrom k 0 = k := by
  induction k with
  | zero => rfl
  | succ k ih => simp [ctzFrom, ih, Nat.add_comm]

theorem ctzFrom_spec {k n : Nat} (nonzero : n ≠ 0) (bound : n < 2 ^ k) :
    ctzFrom k n < k ∧ n % 2 ^ ctzFrom k n = 0 ∧ n / 2 ^ ctzFrom k n % 2 = 1 := by
  induction k generalizing n with
  | zero => omega
  | succ k ih =>
    rcases Nat.mod_two_eq_zero_or_one n with even | odd
    · obtain ⟨below, zeros, one⟩ := ih (n := n / 2) (by omega) (by omega)
      have count : ctzFrom (k + 1) n = ctzFrom k (n / 2) + 1 := by simp [ctzFrom, even, Nat.add_comm]
      rw [count, Nat.pow_succ', Nat.mod_mul, even, zeros, ← Nat.div_div_eq_div_mul]
      exact ⟨by omega, rfl, one⟩
    · have count : ctzFrom (k + 1) n = 0 := by simp [ctzFrom, odd]
      rw [count]
      exact ⟨by omega, Nat.mod_one n, by simpa using odd⟩

theorem popFrom_eq_countP (k n : Nat) : popFrom k n = (List.range k).countP fun i => n / 2 ^ i % 2 == 1 := by
  induction k generalizing n with
  | zero => rfl
  | succ k ih =>
    have tail : ((fun i => n / 2 ^ i % 2 == 1) ∘ Nat.succ) = fun i => n / 2 / 2 ^ i % 2 == 1 := by
      funext i
      rw [Function.comp_apply, Nat.succ_eq_add_one, Nat.pow_succ', Nat.div_div_eq_div_mul]
    rw [List.range_succ_eq_map, List.countP_cons, List.countP_map, tail, ← ih, popFrom, Nat.pow_zero, Nat.div_one]
    rcases Nat.mod_two_eq_zero_or_one n with h | h <;> simp [h, Nat.add_comm]

/-! ## Bit fields (R73) -/

theorem fieldOf_eq (b : Word) : fieldOf b = (b.toNat % 128,
    if 64 ≤ b.toNat % 128 then 0 else min (b.toNat / 256 % 128) (64 - b.toNat % 128)) := by
  have off : bits b 6 0 = b.toNat % 128 := by simp [bits, fld]
  have wid : bits b 14 8 = b.toNat / 256 % 128 := by simp [bits, fld]
  simp only [fieldOf, off, wid]
  split <;> simp

/-- A field of a register ends at bit 63. -/
theorem fieldOf_fits (b : Word) (nonempty : (fieldOf b).2 ≠ 0) : (fieldOf b).1 + (fieldOf b).2 ≤ 64 := by
  rw [fieldOf_eq] at nonempty ⊢
  dsimp only at nonempty ⊢
  split_ifs at nonempty ⊢ <;> omega

theorem sext64_zero (f : Nat) : sext64 0 f = 0 := by
  rw [sext64, signExtend_eq_ofInt, BitVec.eq_nil (BitVec.ofNat 0 f)]
  rfl

/-- The highest bit of a field of n bits is its sign. -/
theorem sext64_eq {n f : Nat} (pos : n ≠ 0) (bound : f < 2 ^ n) :
    sext64 n f = if f < 2 ^ (n - 1) then BitVec.ofNat 64 f else BitVec.ofInt 64 ((f : Int) - 2 ^ n) := by
  have double : 2 ^ n = 2 * 2 ^ (n - 1) := by rw [← Nat.pow_succ', Nat.succ_eq_add_one, Nat.sub_add_cancel (by omega)]
  have half : 2 * f < 2 ^ n ↔ f < 2 ^ (n - 1) := by omega
  rw [sext64, signExtend_eq_ofInt, BitVec.toInt_eq_toNat_cond, BitVec.toNat_ofNat, Nat.mod_eq_of_lt bound]
  simp only [half]
  split
  · rfl
  · norm_cast

/-- The bits of a value with the field of n bits at off replaced by f. -/
theorem testBit_replaceField {o off n f : Nat} (bound : f < 2 ^ n) (k : Nat) :
    (o - o / 2 ^ off % 2 ^ n * 2 ^ off + f * 2 ^ off).testBit k =
      if k < off then o.testBit k else if k < off + n then f.testBit (k - off) else o.testBit k := by
  have cut : o = 2 ^ off * (2 ^ n * (o / 2 ^ off / 2 ^ n) + o / 2 ^ off % 2 ^ n) + o % 2 ^ off := by
    rw [Nat.div_add_mod, Nat.div_add_mod]
  have joined : o - o / 2 ^ off % 2 ^ n * 2 ^ off + f * 2 ^ off =
      2 ^ off * (2 ^ n * (o / 2 ^ off / 2 ^ n) + f) + o % 2 ^ off := by
    rw [Nat.mul_add] at cut ⊢
    rw [Nat.mul_comm _ (2 ^ off), Nat.mul_comm f]
    omega
  rw [joined, Nat.testBit_two_pow_mul_add _ (Nat.mod_lt _ (by positivity))]
  split
  next low => simp [low]
  next high =>
    rw [Nat.testBit_two_pow_mul_add _ bound]
    split
    next inside => rw [if_pos (by omega)]
    next above =>
      rw [if_neg (by omega), Nat.testBit_div_two_pow, Nat.testBit_div_two_pow]
      congr 1
      omega

/-- Masking a field out and joining another value's low bits in replaces the field. -/
theorem replaceField_eq (o x : Word) {off n : Nat} (fits : off + n ≤ 64) :
    (o &&& ~~~(BitVec.ofNat 64 (2 ^ n - 1) <<< off)) ||| ((x &&& BitVec.ofNat 64 (2 ^ n - 1)) <<< off) =
      BitVec.ofNat 64 (o.toNat - o.toNat / 2 ^ off % 2 ^ n * 2 ^ off + x.toNat % 2 ^ n * 2 ^ off) := by
  apply BitVec.eq_of_getLsbD_eq
  intro k hk
  rw [BitVec.getLsbD_ofNat, testBit_replaceField (Nat.mod_lt _ (by positivity))]
  simp only [BitVec.getLsbD_or, BitVec.getLsbD_and, BitVec.getLsbD_not, BitVec.getLsbD_shiftLeft,
    BitVec.getLsbD_ofNat, Nat.testBit_two_pow_sub_one, Nat.testBit_mod_two_pow, BitVec.testBit_toNat, hk]
  by_cases low : k < off
  · simp [low]
  · by_cases inside : k < off + n
    · simp [low, inside, show k - off < n by omega, show k - off < 64 by omega]
    · simp [low, inside, show ¬ k - off < n by omega]

theorem insW_eq (o x y : Word) : insW o x y = if (fieldOf y).2 = 0 then o else BitVec.ofNat 64
    (o.toNat - o.toNat / 2 ^ (fieldOf y).1 % 2 ^ (fieldOf y).2 * 2 ^ (fieldOf y).1
      + x.toNat % 2 ^ (fieldOf y).2 * 2 ^ (fieldOf y).1) := by
  simp only [insW, beq_iff_eq]
  split
  next => rfl
  next nonempty => exact replaceField_eq o x (fieldOf_fits y nonempty)

theorem extrW_eq (x y : Word) : extrW x y =
    let n := (fieldOf y).2
    let f := x.toNat / 2 ^ (fieldOf y).1 % 2 ^ n
    if n = 0 then 0 else if f < 2 ^ (n - 1) then BitVec.ofNat 64 f else BitVec.ofInt 64 ((f : Int) - 2 ^ n) := by
  dsimp only [extrW]
  split
  next empty => rw [empty, sext64_zero]
  next nonempty => exact sext64_eq nonempty (Nat.mod_lt _ (by positivity))

/-! ## Predicates (R51, R74, R75) -/

theorem pred_eq_decide (x : Ctx) (n : Nat) : x.pred n = decide (n = 0 ∨ x.p / 2 ^ n % 2 = 1) := by
  rw [Ctx.pred, beq_eq_decide, beq_eq_decide, Bool.decide_or]

theorem pred_of_ne_zero (x : Ctx) {n : Nat} (h : n ≠ 0) : x.pred n = decide (x.p / 2 ^ n % 2 = 1) := by
  simp only [pred_eq_decide, h, false_or]

theorem pred_toNat (x : Ctx) (n : BitVec 3) : x.pred n.toNat = decide (n = 0 ∨ x.p / 2 ^ n.toNat % 2 = 1) := by
  have zero : n.toNat = 0 ↔ n = 0 := BitVec.toNat_inj (y := 0)
  simp only [pred_eq_decide, zero]

theorem beq_imm9 (x : Word) (i : BitVec 9) : (x == imm9 i) = decide (x.toInt = i.toInt) := by
  rw [← toInt_imm9, beq_eq_decide]
  simp only [BitVec.toInt_inj]

/-! ## The statements -/

/-- Settles O15: movi and movhi land their constant, and the bit counts meet their specifications. -/
theorem scalarMovesAndCounts : Obligations.ScalarMovesAndCounts := by
  unfold Obligations.ScalarMovesAndCounts
  intro s d a i x o hx ho lands
  refine ⟨rfl, ?movhi, ⟨clzN x.toNat, exec_of_alu1 rfl hx rfl, ?clzZero, fun h => clzN_spec h x.isLt⟩,
    ⟨ctzFrom 64 x.toNat, exec_of_alu1 rfl hx rfl, ?ctzZero, fun h => ctzFrom_spec h x.isLt⟩,
    exec_of_alu1 rfl hx (congrArg _ (popFrom_eq_countP 64 _))⟩
  case movhi => rw [exec_movhi i ho, shiftLeft_or_setWidth]
  case clzZero => rintro h; rw [h, clzN_zero]
  case ctzZero => rintro h; rw [h, ctzFrom_zero]

/-- Settles O17: the field of b ends at bit 63; extr sign-extends it, ins replaces it. -/
theorem bitFieldResults : Obligations.BitFieldResults := by
  unfold Obligations.BitFieldResults
  intro s d a b x y o hx hy ho lands off n f
  have field : fieldOf y = (off, n) := fieldOf_eq y
  refine ⟨exec_of_alu2 rfl hx hy ?extru, exec_of_alu2 rfl hx hy ?extr, exec_of_alu3 rfl ho hx hy ?ins⟩
  case extru => rw [extruW, field]
  case extr => rw [extrW_eq, field]
  case ins => rw [insW_eq, field]

/-- Settles O13: each two-source or immediate instruction is one of two shapes with its value rewritten to arithmetic. -/
theorem scalarIntegerResults : Obligations.ScalarIntegerResults := by
  unfold Obligations.ScalarIntegerResults
  intro s d a b i x y hx hy lands
  have two {j : Instr} {n : Nat} {f : Word → Word → Word} {v : Word} (shape : exec j s = slot s (s.alu2 d a b n f))
      (value : f x y = v) : exec j s = lands v n := exec_of_alu2 shape hx hy value
  have addi : x + imm9 i = BitVec.ofInt 64 (x.toInt + i.toInt) := by rw [add_eq_ofInt, toInt_imm9]
  exact ⟨two rfl (BitVec.add_def x y), exec_of_alu1 rfl hx addi, two rfl (sub_eq_ofInt x y), two rfl rfl, two rfl rfl,
    two rfl rfl, two rfl rfl, exec_of_alu1 rfl hx rfl, exec_of_alu1 rfl hx rfl, exec_of_alu1 rfl hx rfl,
    two rfl (minW_eq x y), two rfl (maxW_eq x y), two rfl (minuW_eq x y), two rfl (maxuW_eq x y),
    two rfl rfl, two rfl rfl, two rfl rfl⟩

/-- Settles O14, from the values of the shifts and of the divisions. -/
theorem scalarShiftAndDivision : Obligations.ScalarShiftAndDivision := by
  unfold Obligations.ScalarShiftAndDivision
  intro s d a b i x y hx hy lands shl shr sar
  exact ⟨exec_of_alu2 rfl hx hy (shlW_eq x y), exec_of_alu2 rfl hx hy (shrW_eq x y),
    exec_of_alu2 rfl hx hy (sarW_eq x y), exec_of_alu1 rfl hx (shiftLeft_eq_ofNat x _),
    exec_of_alu1 rfl hx (shiftRight_eq_ofNat x _), exec_of_alu1 rfl hx (sshiftRight_eq_ofInt x _),
    exec_of_alu2 rfl hx hy (divW_eq x y), exec_of_alu2 rfl hx hy (divuW_eq x y),
    exec_of_alu2 rfl hx hy (remW_eq x y), exec_of_alu2 rfl hx hy (remuW_eq x y)⟩

/-- Settles O16: only p0 to p3 may name the predicate that always reads true. -/
theorem selectAndLea : Obligations.SelectAndLea := by
  unfold Obligations.SelectAndLea
  intro s d a b p h x y hx hy lands
  refine ⟨exec_of_alu2 rfl hx hy rfl, fun nonzero => exec_of_alu2 rfl hx hy ?low, exec_of_alu2 rfl hx hy ?high,
    exec_of_alu2 rfl hx hy ?lea⟩
  case low =>
    have : p.toNat ≠ 0 := fun zero => nonzero (BitVec.eq_of_toNat_eq zero)
    simp only [pred_of_ne_zero _ this, decide_eq_true_eq]
  case high => simp only [pred_of_ne_zero _ (Nat.succ_ne_zero (p.toNat + 3)), decide_eq_true_eq]
  case lea => rw [shiftLeft_eq_ofNat, BitVec.ofNat_add, BitVec.ofNat_toNat, BitVec.setWidth_eq]

/-- Settles O18: the conditions on the integers the sources stand for, and the predicates read before the bundle. -/
theorem compareResults : Obligations.CompareResults := by
  unfold Obligations.CompareResults
  intro s p q r a b i x y hx hy lands z
  have op {j : Instr} {v w : Bool} (shape : exec j s = .next (s.landP p v)) (value : v = w) : exec j s = lands w := by
    rw [shape, value, landP_eq]
  have reg (c : Cond) : exec (.cmp p c a b) s = lands (condW c x y) := op (exec_cmp p c hx hy) rfl
  have imm (c : Cond) {v : Bool} : condW c x (imm9 i) = v → exec (.cmpi p c a i) s = lands v :=
    op (exec_cmpi p c i hx)
  refine ⟨reg .eq, reg .ne, reg .lt, reg .ltu, reg .le, reg .leu, imm .eq (beq_imm9 x i), imm .ne ?ne, imm .lt ?lt,
    imm .ltu rfl, imm .le ?le, imm .leu rfl, ?predicates⟩
  case ne => simp only [condW, bne, beq_imm9, decide_not]
  case lt => rw [condW, toInt_imm9]
  case le => rw [condW, toInt_imm9]
  case predicates =>
    intro val
    have read (n : BitVec 3) : s.rd.pred n.toNat = val n := pred_toNat s.rd n
    exact ⟨op rfl (congrArg₂ and (read q) (read r)), op rfl (congrArg₂ or (read q) (read r)),
      op rfl (congrArg₂ bne (read q) (read r)), op rfl (congrArg not (read q)), fun t => rfl⟩

end Sys2Proof.Machine
end

section
/-! PROOFS. The vector instructions: the lanes a table of results lands, the I32 instructions lane by lane (R102, R103),
the tree of a reduction (R108) and the steps of a scan (R109). -/

namespace Sys2Proof.Machine

open Sys2Proof

/-! ## Tables computed by index -/

@[simp] theorem length_tab {α : Type} (n : Nat) (f : Nat → α) : (tab n f).length = n := by simp [tab]

@[simp] theorem getElem_tab {α : Type} (n : Nat) (f : Nat → α) (i : Nat) (h : i < (tab n f).length) :
    (tab n f)[i] = f i := by simp [tab]

theorem tab_succ {α : Type} (n : Nat) (f : Nat → α) : tab (n + 1) f = f 0 :: tab n fun i => f (i + 1) := by
  simp [tab, List.range_succ_eq_map, Function.comp_def]

theorem lane_tab {n l : Nat} (f : Nat → W32) (h : l < n) : lane (tab n f) l = f l := by
  rw [lane, List.getD_eq_getElem _ _ (by simpa using h), getElem_tab]

/-- The lanes of a table of results with flags. -/
theorem lanesOf_tab (n : Nat) (r : Nat → Nat × FlagSet) : lanesOf (tab n r) = tab n fun l => BitVec.ofNat 32 (r l).1 := by
  simp [lanesOf, tab]

/-! ## The OR of flags (R98) -/

theorem getLsbD_foldl_or (l : List FlagSet) (fl : FlagSet) (b : Nat) :
    (l.foldl (· ||| ·) fl).getLsbD b = true ↔ fl.getLsbD b = true ∨ ∃ x ∈ l, x.getLsbD b = true := by
  induction l generalizing fl with
  | nil => simp
  | cons x l ih => simp [ih, or_assoc]

theorem getLsbD_flagsOf_tab (n : Nat) (r : Nat → Nat × FlagSet) (b : Nat) :
    (flagsOf (tab n r)).getLsbD b = true ↔ ∃ l, l < n ∧ (r l).2.getLsbD b = true := by
  simp [flagsOf, orFlags, getLsbD_foldl_or, fNone, tab]

/-! ## I32 lanes (R102, R103) -/

/-- Every lane of a two-source instruction without flags is its operation on the lanes of the sources. -/
theorem exec_of_v2 {i : Instr} {s : State} {d : VDst} {a b : VSrc} {f : W32 → W32 → W32} {g : Nat → W32}
    (shape : exec i s = s.v2 d a b f) (value : ∀ l, f (lane (s.readV a) l) (lane (s.readV b) l) = g l) :
    ∃ w : Lanes, exec i s = .next (s.landY (vdst d) w 2 0) ∧ w.length = 128 ∧ ∀ l, l < 128 → lane w l = g l :=
  ⟨lanes2 f (s.readV a) (s.readV b), shape, length_tab _ _, fun l h => (lane_tab _ h).trans (value l)⟩

theorem sub_eq_ofInt_sub {n : Nat} (x y : BitVec n) : x - y = BitVec.ofInt n (x.toInt - y.toInt) := by
  rw [Int.sub_eq_add_neg, BitVec.ofInt_add, BitVec.ofInt_neg, BitVec.ofInt_toInt, BitVec.ofInt_toInt,
    BitVec.sub_eq_add_neg]

theorem toInt_maxL (x y : W32) : (maxL x y).toInt = max x.toInt y.toInt := by
  rw [maxL, max_def, apply_ite BitVec.toInt]

theorem toInt_minL (x y : W32) : (minL x y).toInt = min x.toInt y.toInt := by
  rw [minL, min_def, apply_ite BitVec.toInt]

theorem maxL_eq (x y : W32) : maxL x y = BitVec.ofInt 32 (max x.toInt y.toInt) := by
  rw [← toInt_maxL, BitVec.ofInt_toInt]

theorem minL_eq (x y : W32) : minL x y = BitVec.ofInt 32 (min x.toInt y.toInt) := by
  rw [← toInt_minL, BitVec.ofInt_toInt]

theorem shlL_eq (x y : W32) : shlL x y = if y.toNat < 32 then BitVec.ofNat 32 (x.toNat * 2 ^ y.toNat) else 0 := by
  rw [shlL, ← Nat.shiftLeft_eq]
  rfl

theorem shrL_eq (x y : W32) : shrL x y = if y.toNat < 32 then BitVec.ofNat 32 (x.toNat / 2 ^ y.toNat) else 0 := by
  rw [shrL, ← Nat.shiftRight_eq_div_pow, ← BitVec.toNat_ushiftRight, BitVec.ofNat_toNat, BitVec.setWidth_eq]

theorem sshiftRight_eq_ofInt_div {n : Nat} (x : BitVec n) (k : Nat) :
    x.sshiftRight k = BitVec.ofInt n (x.toInt / 2 ^ k) := by
  rw [BitVec.sshiftRight_eq, Int.shiftRight_eq_div_pow]
  norm_cast

/-- All bits of a lane shifted out leave copies of its sign. -/
theorem sshiftRight_32 (x : W32) : x.sshiftRight 32 = if 0 ≤ x.toInt then 0 else 0xFFFFFFFF := by
  have lower := BitVec.le_toInt x
  have upper := BitVec.toInt_lt (x := x)
  rw [sshiftRight_eq_ofInt_div]
  split
  · rw [show x.toInt / 2 ^ 32 = 0 by omega]
    rfl
  · rw [show x.toInt / 2 ^ 32 = -1 by omega]
    rfl

theorem sarL_eq (x y : W32) : sarL x y = if y.toNat < 32 then BitVec.ofInt 32 (x.toInt / 2 ^ y.toNat)
    else if 0 ≤ x.toInt then 0 else 0xFFFFFFFF := by
  rw [sarL]
  split
  next h => rw [min_eq_left (by omega), sshiftRight_eq_ofInt_div]
  next h => rw [min_eq_right (by omega), sshiftRight_32]

theorem mask_decide (p : Prop) [Decidable p] : mask (decide p) = if p then 0xFFFFFFFF else 0 := by
  simp only [mask, decide_eq_true_eq]
  rfl

/-- Settles O20: each instruction is one operation on two lanes, with its value rewritten to arithmetic. -/
theorem vectorIntegerResults : Obligations.VectorIntegerResults := by
  unfold Obligations.VectorIntegerResults
  intro s d a b x y lands
  exact ⟨exec_of_v2 rfl fun _ => rfl, exec_of_v2 rfl fun l => sub_eq_ofInt_sub (x l) (y l), exec_of_v2 rfl fun _ => rfl,
    exec_of_v2 rfl fun l => maxL_eq (x l) (y l), exec_of_v2 rfl fun l => minL_eq (x l) (y l),
    exec_of_v2 rfl fun _ => rfl, exec_of_v2 rfl fun _ => rfl, exec_of_v2 rfl fun _ => rfl, exec_of_v2 rfl fun _ => rfl,
    exec_of_v2 rfl fun l => shlL_eq (x l) (y l), exec_of_v2 rfl fun l => shrL_eq (x l) (y l),
    exec_of_v2 rfl fun l => sarL_eq (x l) (y l), exec_of_v2 rfl fun l => mask_decide (x l = y l),
    exec_of_v2 rfl fun l => mask_decide ((x l).toInt < (y l).toInt),
    exec_of_v2 rfl fun l => mask_decide ((x l).toInt ≤ (y l).toInt)⟩

/-! ## The tree of a reduction (R108) -/

/-- The OR of the flags of the combinations inside the block of 2^k lanes from lane lo. -/
def blockFlags (f : Nat → Nat → Nat × FlagSet) (v : Lanes) : Nat → Nat → FlagSet
  | 0, _ => fNone
  | k + 1, lo => blockFlags f v k lo ||| blockFlags f v k (lo + 2 ^ k) |||
      (f (block f v k lo) (block f v k (lo + 2 ^ k))).2

theorem tree_succ (f : Nat × FlagSet → Nat × FlagSet → Nat × FlagSet) (k : Nat) (l : List (Nat × FlagSet)) :
    tree f (k + 1) l = pairUp f (tree f k l) := by
  induction k generalizing l with
  | zero => rfl
  | succ k ih => exact ih (pairUp f l)

theorem pairUp_tab (f : Nat × FlagSet → Nat × FlagSet → Nat × FlagSet) (n : Nat) (g : Nat → Nat × FlagSet) :
    pairUp f (tab (2 * n) g) = tab n fun i => f (g (2 * i)) (g (2 * i + 1)) := by
  induction n generalizing g with
  | zero => rfl
  | succ n ih =>
    rw [Nat.mul_succ, tab_succ, tab_succ, tab_succ, pairUp, ih]
    rfl

/-- After k levels the tree holds the blocks of 2^k lanes, each with the flags of its inside. -/
theorem tree_start (f : Nat → Nat → Nat × FlagSet) (v : Lanes) {k : Nat} (h : k ≤ 7) :
    tree (combine f) k (start v) = tab (2 ^ (7 - k)) fun q => (block f v k (q * 2 ^ k), blockFlags f v k (q * 2 ^ k)) := by
  induction k with
  | zero => simp [tree, start, block, blockFlags]
  | succ k ih =>
    rw [tree_succ, ih (by omega), show 7 - k = 7 - (k + 1) + 1 by omega, pow_succ', pairUp_tab]
    congr 1
    funext q
    have left : 2 * q * 2 ^ k = q * 2 ^ (k + 1) := by ring
    have right : (2 * q + 1) * 2 ^ k = q * 2 ^ (k + 1) + 2 ^ k := by ring
    rw [left, right]
    rfl

/-- A reduction lands the block of all 128 lanes. -/
theorem reduce_eq (s : State) (d : VDst) (a : VSrc) (f : Nat → Nat → Nat × FlagSet) :
    s.reduce d a f = .next (s.landY (vdst d) (List.replicate 128 (BitVec.ofNat 32 (block f (s.readV a) 7 0))) 6
      (blockFlags f (s.readV a) 7 0)) := by
  rw [State.reduce, tree_start f _ le_rfl]
  rfl

/-- The combinations inside the aligned block q of 2^k lanes are, at each lower level j, those whose index halves to q. -/
theorem getLsbD_blockFlags (f : Nat → Nat → Nat × FlagSet) (v : Lanes) (k q b : Nat) :
    (blockFlags f v k (q * 2 ^ k)).getLsbD b = true ↔ ∃ j p, j < k ∧ p / 2 ^ (k - 1 - j) = q ∧
      (f (block f v j (p * 2 ^ (j + 1))) (block f v j (p * 2 ^ (j + 1) + 2 ^ j))).2.getLsbD b = true := by
  induction k generalizing q with
  | zero => simp [blockFlags, fNone]
  | succ k ih =>
    have left : q * 2 ^ (k + 1) = 2 * q * 2 ^ k := by ring
    have right : q * 2 ^ (k + 1) + 2 ^ k = (2 * q + 1) * 2 ^ k := by ring
    have halves {j p : Nat} (h : j < k) :
        p / 2 ^ (k - j) = q ↔ p / 2 ^ (k - 1 - j) = 2 * q ∨ p / 2 ^ (k - 1 - j) = 2 * q + 1 := by
      rw [show k - j = k - 1 - j + 1 by omega, pow_succ, ← Nat.div_div_eq_div_mul]
      omega
    simp only [blockFlags, BitVec.getLsbD_or, Bool.or_eq_true, right, Nat.add_sub_cancel]
    rw [left, ih, ih, ← left, ← right]
    constructor
    · rintro ((⟨j, p, hj, hp, flag⟩ | ⟨j, p, hj, hp, flag⟩) | flag)
      · exact ⟨j, p, by omega, (halves hj).2 (.inl hp), flag⟩
      · exact ⟨j, p, by omega, (halves hj).2 (.inr hp), flag⟩
      · exact ⟨k, q, by omega, by simp, flag⟩
    · rintro ⟨j, p, hj, hp, flag⟩
      rcases Nat.lt_succ_iff_lt_or_eq.1 hj with inside | rfl
      · rcases (halves inside).1 hp with hp | hp
        · exact .inl (.inl ⟨j, p, inside, hp, flag⟩)
        · exact .inl (.inr ⟨j, p, inside, hp, flag⟩)
      · obtain rfl : p = q := by simpa using hp
        exact .inr flag

/-- The flags of a reduction are those of all its 127 combinations. -/
theorem getLsbD_blockFlags_all (f : Nat → Nat → Nat × FlagSet) (v : Lanes) (b : Nat) :
    (blockFlags f v 7 0).getLsbD b = true ↔ ∃ k q, k < 7 ∧ q < 2 ^ (6 - k) ∧
      (f (block f v k (q * 2 ^ (k + 1))) (block f v k (q * 2 ^ (k + 1) + 2 ^ k))).2.getLsbD b = true := by
  have all := getLsbD_blockFlags f v 7 0 b
  simpa only [zero_mul, Nat.add_one_sub_one, Nat.div_eq_zero_iff_lt (Nat.two_pow_pos _)] using all

/-! ## Reductions in I32 (R108) -/

theorem ofNat_block_zero (f : Nat → Nat → Nat × FlagSet) (v : Lanes) (lo : Nat) :
    BitVec.ofNat 32 (block f v 0 lo) = lane v lo := by simp [block]

theorem ofNat_block_plain (g : W32 → W32 → W32) (v : Lanes) (k lo : Nat) :
    BitVec.ofNat 32 (block (plain g) v (k + 1) lo) =
      g (BitVec.ofNat 32 (block (plain g) v k lo)) (BitVec.ofNat 32 (block (plain g) v k (lo + 2 ^ k))) := by
  simp [block, plain]

theorem blockFlags_plain (g : W32 → W32 → W32) (v : Lanes) (k lo : Nat) : blockFlags (plain g) v k lo = 0 := by
  induction k generalizing lo with
  | zero => rfl
  | succ k ih => simp [blockFlags, ih, plain, fNone]

/-- A reduction in I32 sets no flag. -/
theorem reduce_plain (s : State) (d : VDst) (a : VSrc) (g : W32 → W32 → W32) :
    s.reduce d a (plain g) = .next (s.landY (vdst d)
      (List.replicate 128 (BitVec.ofNat 32 (block (plain g) (s.readV a) 7 0))) 6 0) := by
  rw [reduce_eq, blockFlags_plain]

/-- The I32 block is the sum of its lanes. -/
theorem ofNat_block_add (v : Lanes) (k lo : Nat) : BitVec.ofNat 32 (block (plain (· + ·)) v k lo) =
    BitVec.ofNat 32 ((List.range (2 ^ k)).map fun i => (lane v (lo + i)).toNat).sum := by
  induction k generalizing lo with
  | zero => simp [block]
  | succ k ih =>
    rw [ofNat_block_plain, ih, ih, ← BitVec.ofNat_add, pow_succ, mul_two, List.range_add]
    simp [Function.comp_def, add_assoc]

/-- An operation that picks the lane of the larger key puts the largest lane of a block in it. -/
theorem block_picks_largest {g : W32 → W32 → W32} (key : W32 → Int) (picks : ∀ x y, g x y = x ∨ g x y = y)
    (larger : ∀ x y, key (g x y) = max (key x) (key y)) (v : Lanes) (k lo : Nat) :
    let z := BitVec.ofNat 32 (block (plain g) v k lo)
    (∃ l, l < lo + 2 ^ k ∧ lane v l = z) ∧ ∀ l, lo ≤ l → l < lo + 2 ^ k → key (lane v l) ≤ key z := by
  induction k generalizing lo with
  | zero =>
    simp only [ofNat_block_zero, pow_zero]
    refine ⟨⟨lo, by omega, rfl⟩, fun l low high => ?_⟩
    rw [show l = lo by omega]
  | succ k ih =>
    have double : lo + 2 ^ (k + 1) = lo + 2 ^ k + 2 ^ k := by ring
    obtain ⟨⟨l, hl, left⟩, leftMax⟩ := ih lo
    obtain ⟨⟨r, hr, right⟩, rightMax⟩ := ih (lo + 2 ^ k)
    simp only [ofNat_block_plain, larger, double]
    refine ⟨?picked, fun i low high => ?largest⟩
    case picked =>
      rcases picks (BitVec.ofNat 32 (block (plain g) v k lo)) (BitVec.ofNat 32 (block (plain g) v k (lo + 2 ^ k)))
        with same | same
      · exact ⟨l, hl.trans_le (Nat.le_add_right _ _), left.trans same.symm⟩
      · exact ⟨r, hr, right.trans same.symm⟩
    case largest =>
      rcases Nat.lt_or_ge i (lo + 2 ^ k) with below | above
      · exact (leftMax i low below).trans (le_max_left _ _)
      · exact (rightMax i above high).trans (le_max_right _ _)

/-- The I32 maximum of all lanes. -/
theorem block_maxL (v : Lanes) :
    let z := BitVec.ofNat 32 (block (plain maxL) v 7 0)
    (∃ l, l < 128 ∧ lane v l = z) ∧ ∀ l, l < 128 → (lane v l).toInt ≤ z.toInt := by
  have picks (x y : W32) : maxL x y = x ∨ maxL x y = y := (ite_eq_or_eq (x.toInt ≤ y.toInt) y x).symm
  obtain ⟨picked, largest⟩ := block_picks_largest BitVec.toInt picks toInt_maxL v 7 0
  exact ⟨picked, fun l h => largest l l.zero_le h⟩

/-- The I32 minimum of all lanes: the largest when integers are negated. -/
theorem block_minL (v : Lanes) :
    let z := BitVec.ofNat 32 (block (plain minL) v 7 0)
    (∃ l, l < 128 ∧ lane v l = z) ∧ ∀ l, l < 128 → z.toInt ≤ (lane v l).toInt := by
  have picks (x y : W32) : minL x y = x ∨ minL x y = y := ite_eq_or_eq (x.toInt ≤ y.toInt) x y
  have larger (x y : W32) : -(minL x y).toInt = max (-x.toInt) (-y.toInt) := by rw [toInt_minL, max_neg_neg]
  obtain ⟨picked, largest⟩ := block_picks_largest (fun x => -x.toInt) picks larger v 7 0
  exact ⟨picked, fun l h => neg_le_neg_iff.1 (largest l l.zero_le h)⟩

/-! ## The steps of a scan (R109) -/

/-- The OR of the flags of the combinations that lane l holds after k steps. -/
def scanFlags (f : Nat → Nat → Nat × FlagSet) (v : Lanes) : Nat → Nat → FlagSet
  | 0, _ => fNone
  | k + 1, l => if l < 2 ^ k then scanFlags f v k l
      else scanFlags f v k (l - 2 ^ k) ||| scanFlags f v k l ||| (f (scanAt f v k (l - 2 ^ k)) (scanAt f v k l)).2

theorem scanStep_tab (f : Nat × FlagSet → Nat × FlagSet → Nat × FlagSet) (d n : Nat) (g : Nat → Nat × FlagSet) :
    scanStep f d (tab n g) = tab n fun l => if l < d then g l else f (g (l - d)) (g l) := by
  refine List.ext_getElem ?length fun l h₁ h₂ => ?entry
  case length =>
    simp only [scanStep, List.length_append, List.length_take, List.length_zipWith, List.length_drop, length_tab]
    omega
  case entry =>
    have bound : l < n := by simpa using h₂
    simp only [scanStep, List.getElem_append, List.length_take, length_tab, getElem_tab, List.getElem_take,
      List.getElem_zipWith, List.getElem_drop]
    rcases Nat.lt_or_ge l d with below | above
    · rw [dif_pos (by omega), if_pos below]
    · rw [dif_neg (by omega), if_neg (by omega), min_eq_left (by omega), Nat.add_sub_cancel' above]

/-- After k steps every lane holds its scan, with the flags of the combinations in it. -/
theorem foldl_scanStep_start (f : Nat → Nat → Nat × FlagSet) (v : Lanes) (k : Nat) :
    ((List.range k).map (2 ^ ·)).foldl (fun x d => scanStep (combine f) d x) (start v) =
      tab 128 fun l => (scanAt f v k l, scanFlags f v k l) := by
  induction k with
  | zero => rfl
  | succ k ih =>
    rw [List.range_succ, List.map_append, List.foldl_append, ih]
    change scanStep (combine f) (2 ^ k) _ = _
    rw [scanStep_tab]
    congr 1
    funext l
    simp only [scanAt, scanFlags, combine]
    split <;> rfl

/-- The lanes and flags vscan.add lands. -/
theorem exec_vscanAdd (s : State) (d : VDst) (a : VSrc) (y : Bool) :
    let f := if y then plain (· + ·) else addE .fp32 s.mode
    exec (.vscanAdd d a y) s = .next (s.landY (vdst d) (tab 128 fun l => BitVec.ofNat 32 (scanAt f (s.readV a) 7 l)) 6
      (flagsOf (tab 128 fun l => (scanAt f (s.readV a) 7 l, scanFlags f (s.readV a) 7 l)))) := by
  intro f
  have steps := foldl_scanStep_start f (s.readV a) 7
  change execVscanAdd d a y s = _
  rw [execVscanAdd, show [1, 2, 4, 8, 16, 32, 64] = (List.range 7).map (2 ^ ·) from rfl, steps, lanesOf_tab]

/-- The flags of n lanes after k steps are those of every combination of these steps. -/
theorem exists_getLsbD_scanFlags (f : Nat → Nat → Nat × FlagSet) (v : Lanes) (n k b : Nat) :
    (∃ l, l < n ∧ (scanFlags f v k l).getLsbD b = true) ↔ ∃ j l, j < k ∧ 2 ^ j ≤ l ∧ l < n ∧
      (f (scanAt f v j (l - 2 ^ j)) (scanAt f v j l)).2.getLsbD b = true := by
  induction k with
  | zero => simp [scanFlags, fNone]
  | succ k ih =>
    have step : (∃ l, l < n ∧ (scanFlags f v (k + 1) l).getLsbD b = true) ↔
        (∃ l, l < n ∧ (scanFlags f v k l).getLsbD b = true) ∨
        ∃ l, 2 ^ k ≤ l ∧ l < n ∧ (f (scanAt f v k (l - 2 ^ k)) (scanAt f v k l)).2.getLsbD b = true := by
      constructor
      · rintro ⟨l, hl, flag⟩
        rw [scanFlags] at flag
        split at flag
        next => exact .inl ⟨l, hl, flag⟩
        next h =>
          simp only [BitVec.getLsbD_or, Bool.or_eq_true] at flag
          obtain (flag | flag) | flag := flag
          · exact .inl ⟨l - 2 ^ k, (Nat.sub_le l _).trans_lt hl, flag⟩
          · exact .inl ⟨l, hl, flag⟩
          · exact .inr ⟨l, by omega, hl, flag⟩
      · rintro (⟨l, hl, flag⟩ | ⟨l, low, hl, flag⟩)
        · refine ⟨l, hl, ?_⟩
          rw [scanFlags]
          split
          · exact flag
          · simp [flag]
        · refine ⟨l, hl, ?_⟩
          rw [scanFlags, if_neg (by omega)]
          simp [flag]
    rw [step, ih]
    constructor
    · rintro (⟨j, l, hj, rest⟩ | ⟨l, rest⟩)
      · exact ⟨j, l, by omega, rest⟩
      · exact ⟨k, l, by omega, rest⟩
    · rintro ⟨j, l, hj, rest⟩
      rcases Nat.lt_succ_iff_lt_or_eq.1 hj with before | rfl
      · exact .inl ⟨j, l, before, rest⟩
      · exact .inr ⟨l, rest⟩

/-- The last lane of 2^k after k steps is their block: the scan combines them as the tree does. -/
theorem scanAt_eq_block (f : Nat → Nat → Nat × FlagSet) (v : Lanes) (k lo : Nat) :
    scanAt f v k (lo + (2 ^ k - 1)) = block f v k lo := by
  induction k generalizing lo with
  | zero => rfl
  | succ k ih =>
    have pos := Nat.two_pow_pos k
    have double : 2 ^ (k + 1) = 2 ^ k + 2 ^ k := by ring
    rw [scanAt, if_neg (by omega), show lo + (2 ^ (k + 1) - 1) - 2 ^ k = lo + (2 ^ k - 1) by omega,
      show lo + (2 ^ (k + 1) - 1) = lo + 2 ^ k + (2 ^ k - 1) by omega, ih, ih, block]

/-! ## The scan in I32 (R109) -/

theorem scanFlags_plain (g : W32 → W32 → W32) (v : Lanes) (k l : Nat) : scanFlags (plain g) v k l = 0 := by
  induction k generalizing l with
  | zero => rfl
  | succ k ih => simp [scanFlags, ih, plain, fNone]

/-- After k steps each of the first 2^k lanes is the sum of the lanes up to it; a higher lane is the sum of the 2^k lanes up to it. -/
theorem ofNat_scanAt_add (v : Lanes) {k l : Nat} (h : l < 2 ^ k) : BitVec.ofNat 32 (scanAt (plain (· + ·)) v k l) =
    BitVec.ofNat 32 ((List.range (l + 1)).map fun i => (lane v i).toNat).sum := by
  induction k generalizing l with
  | zero =>
    obtain rfl : l = 0 := by simpa using h
    simp [scanAt]
  | succ k ih =>
    rcases Nat.lt_or_ge l (2 ^ k) with below | above
    · rw [scanAt, if_pos below, ih below]
    · have pos := Nat.two_pow_pos k
      have double : 2 ^ (k + 1) = 2 ^ k + 2 ^ k := by ring
      have upper : scanAt (plain (· + ·)) v k l = block (plain (· + ·)) v k (l - 2 ^ k + 1) := by
        rw [← scanAt_eq_block, show l - 2 ^ k + 1 + (2 ^ k - 1) = l by omega]
      have lower := ih (l := l - 2 ^ k) (by omega)
      rw [scanAt, if_neg (by omega), plain, BitVec.ofNat_toNat, BitVec.setWidth_eq, lower, upper, ofNat_block_add,
        ← BitVec.ofNat_add, show l + 1 = l - 2 ^ k + 1 + 2 ^ k by omega, List.range_add (m := 2 ^ k), List.map_append,
        List.sum_append, List.map_map]
      rfl

/-- The scan in I32 sets no flag. -/
theorem exec_vscanAdd_I32 (s : State) (d : VDst) (a : VSrc) : exec (.vscanAdd d a true) s =
    .next (s.landY (vdst d) (tab 128 fun l => BitVec.ofNat 32 (scanAt (plain (· + ·)) (s.readV a) 7 l)) 6 0) := by
  have flags (r : Nat → Nat) : flagsOf (tab 128 fun l => (r l, (0 : FlagSet))) = 0 := by
    refine BitVec.eq_of_getLsbD_eq fun b _ => Bool.eq_iff_iff.2 ?_
    simp [getLsbD_flagsOf_tab]
  rw [exec_vscanAdd]
  simp only [if_true, scanFlags_plain, flags]

/-! ## Reductions and scans (R108, R109) -/

/-- Settles O25: the tree holds the blocks of R108 and the steps the lanes of R109, with their flags; in I32 both are
sums modulo 2^32, and the last lane of a scan is the block of all lanes. -/
theorem reductionsAndScan : Obligations.ReductionsAndScan := by
  unfold Obligations.ReductionsAndScan
  intro s d a m v lands add reduces
  have reduction {i : Instr} {f : Nat → Nat → Nat × FlagSet} (shape : exec i s = s.reduce d a f) : reduces i f :=
    ⟨blockFlags f v 7 0, shape.trans (reduce_eq s d a f), fun b _ => getLsbD_blockFlags_all f v b⟩
  have integer {i : Instr} {g : W32 → W32 → W32} {n : Nat} (shape : exec i s = s.reduce d a (plain g))
      (value : BitVec.ofNat 32 (block (plain g) v 7 0) = BitVec.ofNat 32 n) : lands i (n, 0) := by
    rw [reduce_plain, value] at shape
    exact shape
  have encoded (z : W32) : z = BitVec.ofNat 32 z.toNat := by rw [BitVec.ofNat_toNat, BitVec.setWidth_eq]
  refine ⟨reduction rfl, reduction rfl, reduction rfl, integer rfl ?sum, ⟨_, integer rfl (encoded _), block_maxL v⟩,
    ⟨_, integer rfl (encoded _), block_minL v⟩, ⟨_, exec_vscanAdd_I32 s d a, length_tab _ _, fun l h => ?partialSum⟩,
    ⟨_, _, exec_vscanAdd s d a false, length_tab _ _, fun l h => lane_tab _ h, ?last, fun b _ => ?flags⟩⟩
  case sum =>
    have total := ofNat_block_add v 7 0
    simpa only [zero_add, Nat.reducePow] using total
  case partialSum => rw [lane_tab _ h, ofNat_scanAt_add v h]
  case last => rw [lane_tab _ (by decide), ← scanAt_eq_block]; rfl
  case flags => exact (getLsbD_flagsOf_tab _ _ b).trans (exists_getLsbD_scanFlags add v 128 7 b)

end Sys2Proof.Machine
end
